-- ==== Sys2Proof/Word.lean ====
section
/-! DEFINITION. The words of the controller: bytes of the Press Port, counts on a path counter, splice numbers, and the
numbers by which stands, paths, reel records and notice sources are named (00_scope.md, "Conventions"). -/

namespace Sys2Proof

/-- A byte of a port register or of the parameter buffer. -/
abbrev Byte := BitVec 8

/-- A count on a 32-bit path counter, which wraps (R39). -/
abbrev Count := BitVec 32

/-- A splice number, 0 to 65,535, which wraps (R135). -/
abbrev SpliceNo := BitVec 16

/-- A stand, 0 to 11. -/
abbrev StandNo := Fin 12

/-- A path (a folder), 0 to 3. -/
abbrev PathNo := Fin 4

/-- A handle: the slot number of a reel record, 0 to 47 (R1). -/
abbrev Handle := Fin 48

/-- A notice source: 0 to 11 the stands, 12 to 15 the paths (section 9.1). -/
abbrev Source := Fin 16

end Sys2Proof
end

