-- ==== Sys2Proof/Config.lean ====
section
/-! DEFINITION. What is fixed for the controller: the sizes of its tables and queues, and the time limits of its inputs.
The spec leaves no computed value of the controller open, so this file holds no free value. -/

namespace Sys2Proof.Config

/-- An order queue holds at most 2 handles (R26). -/
def queueCapacity : Nat := 2

/-- A transit queue holds at most 4 records (R134). -/
def transitCapacity : Nat := 4

/-- The parameter buffer holds 24 bytes (R173). -/
abbrev bufferBytes : Nat := 24

/-- A web pulse comes at least 40 µs after the last pulse of its input (R185, Figure 52). -/
def pulseSpacingMicros : Nat := 40

/-- A mark comes at least 1 ms after the last mark of its input (R185, Figure 52), in microseconds. -/
def markSpacingMicros : Nat := 1000

/-- How deep forced takes can nest in one step: each nesting but the last turns one of the 4 permits from GRANTED to
FORCED, and nothing turns it back within the nest (log 20). -/
def forcedNesting : Nat := 5

end Sys2Proof.Config
end

