-- ==== Sys2Proof/Syntax.lean ====
section
/-! DEFINITION. The steps of the controller, one constructor of `Instr` for each row of spec/opcode_table.json, and the
names their operands take. -/

namespace Sys2Proof

/-- The arms of a stand. -/
inductive Arm where
  | a | b | c
  deriving DecidableEq, Repr

/-- The filtered inputs of a stand (R184): the LOAD DONE key of each arm, the HOLD and SPLICE keys, the WEB BREAK input. -/
inductive KeyInput where
  | loadDone (arm : Arm)
  | hold
  | splice
  | webBreak
  deriving DecidableEq, Repr

/-- The pulse outputs of a stand (R62). -/
inductive PulseOutput where
  | paste | knife
  deriving DecidableEq, Repr

/-- The commands of Figure 42. -/
inductive Command where
  | enterReel | findReel | fetchReel | amendReel | mountReel | prepareReel | unmountReel | retireReel | reorder
  | standEnable | standDisable | standReset | threadReel | hold | release | spliceSoon | spliceNow | output | fetchStand
  | profileWrite | profileRead | profileChange | pathSet | fetchPath
  | acceptNotice | endNotice
  | deviceReset
  deriving DecidableEq, Repr

/-- Which event of a command its row is (log 1). The code write takes the command at the port (R174); the owning block
takes it at an event of its own, later (R175). Its parameters come from the parameter buffer. -/
inductive CmdEvent where
  /-- The code write, and the owning block's taking of the command before any other event. -/
  | atOnce
  /-- The code write alone. -/
  | write
  /-- The owning block's taking of the command handed at position `n`, 0 the oldest not yet taken. -/
  | take (n : Nat)
  deriving DecidableEq, Repr

/-- One step of the controller. -/
inductive Instr where
  -- Reel Table commands
  | enterReel (e : CmdEvent)
  | findReel (e : CmdEvent)
  | fetchReel (e : CmdEvent)
  | amendReel (e : CmdEvent)
  | mountReel (e : CmdEvent)
  | prepareReel (e : CmdEvent)
  | unmountReel (e : CmdEvent)
  | retireReel (e : CmdEvent)
  -- stand commands
  | reorder (e : CmdEvent)
  | standEnable (e : CmdEvent)
  | standDisable (e : CmdEvent)
  | standReset (e : CmdEvent)
  | threadReel (e : CmdEvent)
  | hold (e : CmdEvent)
  | release (e : CmdEvent)
  | spliceSoon (e : CmdEvent)
  | spliceNow (e : CmdEvent)
  | output (e : CmdEvent)
  | fetchStand (e : CmdEvent)
  -- profiles and path settings
  | profileWrite (e : CmdEvent)
  | profileRead (e : CmdEvent)
  | profileChange (e : CmdEvent)
  | pathSet (e : CmdEvent)
  | fetchPath (e : CmdEvent)
  -- notices
  | acceptNotice (e : CmdEvent)
  | endNotice (e : CmdEvent)
  -- the device
  | deviceReset (e : CmdEvent)
  -- the Press Port
  | undefinedCommandCode (code : Byte)
  | commandCompletion
  | bufferRead
  | bufferWrite (value : Byte)
  | indexWrite (value : Byte)
  | classEnableWrite (value : Byte)
  | portReset (value : Byte)
  | ignoredRegisterWrite (offset : Fin 8) (value : Byte)
  -- device reset and initialisation
  | resetLineAsserted
  | resetLineReleased
  | initialisationComplete
  -- the web of a path; `since` is the time in microseconds since the last pulse or mark of the input (R185, log 9)
  | webPulse (path : PathNo) (since : Nat)
  /-- `order` is the order in which the stands of the path take the stop; a stand it does not name comes after those it
  names, by number (log 5). -/
  | motionTimerExpiry (path : PathNo) (order : List StandNo)
  -- the run marks of a stand
  | runMark (stand : StandNo) (arm : Arm) (since : Nat)
  | runMarkDeadline (stand : StandNo)
  | reckoningStep (stand : StandNo)
  -- the splice of a stand
  | freshReelMark (stand : StandNo) (arm : Arm) (since : Nat)
  | freshReelMarkDeadline (stand : StandNo)
  | runUpTimerExpiry (stand : StandNo)
  | backoffTimerExpiry (stand : StandNo)
  | paste (stand : StandNo)
  | cut (stand : StandNo)
  | settleTargetReached (stand : StandNo)
  | brakeTimerExpiry (stand : StandNo)
  | pulseEnd (stand : StandNo) (output : PulseOutput)
  -- the transit queue of a path; `position` counts from 0, the oldest record
  | rejectStart (path : PathNo) (position : Nat)
  | rejectEnd (path : PathNo) (position : Nat)
  | guardCountReached (path : PathNo) (position : Nat)
  -- the keys and the web break sensor of a stand
  | loadDone (stand : StandNo) (arm : Arm)
  | holdKey (stand : StandNo)
  | spliceKey (stand : StandNo)
  | webBreak (stand : StandNo)
  | keyInputChange (stand : StandNo) (input : KeyInput) (active : Bool)
  | filterSettlesInactive (stand : StandNo) (input : KeyInput)
  deriving DecidableEq, Repr

end Sys2Proof
end

