-- ==== Sys2Proof/Decode.lean ====
section
/-! DEFINITION. What the controller decodes: the command codes of Figure 42 as they are written to the command register.
No row of the opcode table gives bits, so no word of the table's numbering spells a step. -/

namespace Sys2Proof

/-- The code of a command (Figure 42). -/
def Command.code : Command → Byte
  | .enterReel => 0x10 | .findReel => 0x11 | .fetchReel => 0x12 | .amendReel => 0x13
  | .mountReel => 0x14 | .prepareReel => 0x15 | .unmountReel => 0x16 | .retireReel => 0x17
  | .reorder => 0x18
  | .standEnable => 0x20 | .standDisable => 0x21 | .standReset => 0x22 | .threadReel => 0x23
  | .hold => 0x24 | .release => 0x25 | .spliceSoon => 0x26 | .spliceNow => 0x27
  | .output => 0x28 | .fetchStand => 0x29
  | .profileWrite => 0x30 | .profileRead => 0x31 | .profileChange => 0x32 | .pathSet => 0x33
  | .fetchPath => 0x34
  | .acceptNotice => 0x40 | .endNotice => 0x41
  | .deviceReset => 0x50

/-- The command that a code names, if any (Figure 42; R174: a code that names no command of it). -/
def Command.ofCode (code : Byte) : Option Command :=
  match code.toNat with
  | 0x10 => some .enterReel | 0x11 => some .findReel | 0x12 => some .fetchReel | 0x13 => some .amendReel
  | 0x14 => some .mountReel | 0x15 => some .prepareReel | 0x16 => some .unmountReel | 0x17 => some .retireReel
  | 0x18 => some .reorder
  | 0x20 => some .standEnable | 0x21 => some .standDisable | 0x22 => some .standReset | 0x23 => some .threadReel
  | 0x24 => some .hold | 0x25 => some .release | 0x26 => some .spliceSoon | 0x27 => some .spliceNow
  | 0x28 => some .output | 0x29 => some .fetchStand
  | 0x30 => some .profileWrite | 0x31 => some .profileRead | 0x32 => some .profileChange | 0x33 => some .pathSet
  | 0x34 => some .fetchPath
  | 0x40 => some .acceptNotice | 0x41 => some .endNotice
  | 0x50 => some .deviceReset
  | _ => none

/-- The step that a word of the opcode table spells. No row of the table gives bits, so there is none. -/
def decodeTableWord (_nbits _w : Nat) : Option Instr := none

end Sys2Proof
end

