-- ==== Sys2Proof/WellFormed.lean ====
section
/-! DEFINITION. Which terms of `Instr` are steps of the opcode table: the checks on operands that the types do not make. -/

namespace Sys2Proof

/-- A row of a command that is handed to a block is one of the events of R174 and R175. DEVICE RESET is not handed to a
block (R181), so no block takes it. -/
def CmdEvent.wellFormed (c : Command) : CmdEvent → Bool
  | .atOnce => true
  | .write => true
  | .take _ => c != .deviceReset

/-- Whether a write of a register is one without an action of its own (R172, R174): 01h, 02h and 05h, 07h with bit 0
clear, and the code 00h. Before READY any write is ignored, so this is the check for a ready port. -/
def ignoredWhenReady (offset : Fin 8) (value : Byte) : Bool :=
  match offset with
  | 0 => value == 0
  | 1 => true
  | 2 => true
  | 5 => true
  | 7 => !value.getLsbD 0
  | _ => false

/-- Whether a list names no stand twice. -/
def noRepeats : List StandNo → Bool
  | [] => true
  | n :: rest => !rest.contains n && noRepeats rest

/-- Whether a term is a step of the table. `ready` says whether READY is set, which an ignored write depends on (R172). -/
def Instr.wellFormed (ready : Bool) : Instr → Bool
  | .enterReel e => e.wellFormed .enterReel
  | .findReel e => e.wellFormed .findReel
  | .fetchReel e => e.wellFormed .fetchReel
  | .amendReel e => e.wellFormed .amendReel
  | .mountReel e => e.wellFormed .mountReel
  | .prepareReel e => e.wellFormed .prepareReel
  | .unmountReel e => e.wellFormed .unmountReel
  | .retireReel e => e.wellFormed .retireReel
  | .reorder e => e.wellFormed .reorder
  | .standEnable e => e.wellFormed .standEnable
  | .standDisable e => e.wellFormed .standDisable
  | .standReset e => e.wellFormed .standReset
  | .threadReel e => e.wellFormed .threadReel
  | .hold e => e.wellFormed .hold
  | .release e => e.wellFormed .release
  | .spliceSoon e => e.wellFormed .spliceSoon
  | .spliceNow e => e.wellFormed .spliceNow
  | .output e => e.wellFormed .output
  | .fetchStand e => e.wellFormed .fetchStand
  | .profileWrite e => e.wellFormed .profileWrite
  | .profileRead e => e.wellFormed .profileRead
  | .profileChange e => e.wellFormed .profileChange
  | .pathSet e => e.wellFormed .pathSet
  | .fetchPath e => e.wellFormed .fetchPath
  | .acceptNotice e => e.wellFormed .acceptNotice
  | .endNotice e => e.wellFormed .endNotice
  | .deviceReset e => e.wellFormed .deviceReset
  | .undefinedCommandCode code => code != 0 && (Command.ofCode code).isNone
  | .commandCompletion => true
  | .bufferRead => true
  | .bufferWrite _ => true
  | .indexWrite _ => true
  | .classEnableWrite _ => true
  | .portReset value => value.getLsbD 0
  | .ignoredRegisterWrite offset value => !ready || ignoredWhenReady offset value
  | .resetLineAsserted => true
  | .resetLineReleased => true
  | .initialisationComplete => true
  | .webPulse _ _ => true
  | .motionTimerExpiry _ order => noRepeats order
  | .runMark _ _ _ => true
  | .runMarkDeadline _ => true
  | .reckoningStep _ => true
  | .freshReelMark _ _ _ => true
  | .freshReelMarkDeadline _ => true
  | .runUpTimerExpiry _ => true
  | .backoffTimerExpiry _ => true
  | .paste _ => true
  | .cut _ => true
  | .settleTargetReached _ => true
  | .brakeTimerExpiry _ => true
  | .pulseEnd _ _ => true
  | .rejectStart _ position => decide (position < Config.transitCapacity)
  | .rejectEnd _ position => decide (position < Config.transitCapacity)
  | .guardCountReached _ position => decide (position < Config.transitCapacity)
  | .loadDone _ _ => true
  | .holdKey _ => true
  | .spliceKey _ => true
  | .webBreak _ => true
  | .keyInputChange _ _ _ => true
  | .filterSettlesInactive _ _ => true

end Sys2Proof
end

