-- ==== Sys2Proof/Machine/State.lean ====
section
/-! DEFINITION. The state of the controller, block by block (00_scope.md Figure 1), as plain data, and the state right
after device reset. -/

namespace Sys2Proof.Machine

/-! ### Reel Table -/

/-- The states of a reel record (R6). -/
inductive ReelState where
  | staged | mounted | prepared | running | butt
  deriving DecidableEq, Repr

/-- The place of a reel record (R6). -/
structure Place where
  stand : StandNo
  arm : Arm
  deriving DecidableEq, Repr

/-- A live reel record (Figure 6). Lengths are in metres, the other distances in millimetres, the caliper in
micrometres. -/
structure Reel where
  tag : Nat
  grade : Nat
  width : Nat
  core : Nat
  diameter : Nat
  caliper : Nat
  length : Nat
  offset : Option Nat
  state : ReelState
  place : Option Place
  mismatch : Bool
  lock : Bool
  deadReckoning : Bool
  stale : Bool
  spliceNumber : Option SpliceNo
  deriving DecidableEq, Repr

/-! ### Stand Sequencer -/

/-- The states of a stand (Figure 19). -/
inductive StandState where
  | off | idle | running | waiting | backoff | held | locked | runUp | paste | cut | settle
  deriving DecidableEq, Repr

/-- The levels of a request (R64). No level is an absent one. -/
inductive Level where
  | early | normal | urgent
  deriving DecidableEq, Repr

/-- The threshold flags (R54). -/
inductive Threshold where
  | warn | splice | critical
  deriving DecidableEq, Repr

/-- The working items of one splice (Figure 21), and the break recorded in CUT (R113). -/
structure SpliceContext where
  fresh : Handle
  freshArm : Option Arm
  former : Option Handle
  forced : Bool
  permitHeld : Bool
  circumference : Nat
  matchCount : Nat
  lastMark : Option Count
  watchArmed : Bool
  watchDeadline : Option Count
  firePoint : Option Nat
  phaseTarget : Option Count
  pasteCount : Option Count
  spliceNumber : Option SpliceNo
  knifeTarget : Option Count
  settleTarget : Option Count
  settleMarks : Nat
  breakInCut : Bool
  deriving DecidableEq, Repr

/-- A Stand Sequencer (Figure 20), its order queue (R26) and its deferral marks (R102). A running timer holds the
duration it took when it started (log 8). -/
structure Stand where
  state : StandState
  running : Option Handle
  queue : List Handle
  warn : Bool
  splice : Bool
  critical : Bool
  level : Option Level
  hold : Bool
  lock : Bool
  stall : Bool
  webBroken : Bool
  /-- in tenths of a second (R74) -/
  runUpTimer : Option Nat
  /-- in seconds (R108) -/
  backoffTimer : Option Nat
  /-- in tenths of a second (R63) -/
  brakeTimer : Option Nat
  deferredReset : Bool
  deferredDisable : Bool
  deferredProfile : Bool
  context : Option SpliceContext
  deriving DecidableEq, Repr

/-! ### Measurement Unit -/

/-- The states of a run-mark watcher (Figure 16). -/
inductive WatchState where
  | idle | starting | timing | reckoning
  deriving DecidableEq, Repr

/-- A run-mark watcher (Figure 15). -/
structure Watcher where
  state : WatchState
  arm : Option Arm
  path : Option PathNo
  reference : Count
  pLast : Nat
  deadline : Option Count
  reckoningCount : Option Count
  deriving DecidableEq, Repr

/-- The web of a path: its counter (R39), its motion state and motion timer in milliseconds (R41), and whether a web
pulse has been taken since initialisation (R185, log 9). -/
structure Web where
  counter : Count
  moving : Bool
  motionTimer : Option Nat
  pulseTaken : Bool
  deriving DecidableEq, Repr

/-! ### Permit Arbiter -/

/-- The permit of a path with its holder (R117). -/
inductive Permit where
  | free
  | granted (holder : StandNo)
  | forced (holder : StandNo)
  deriving DecidableEq, Repr

/-- The fair-share marks of one stand, one per level (R123). -/
structure Marks where
  early : Bool
  normal : Bool
  urgent : Bool
  deriving DecidableEq, Repr

/-- A Permit Arbiter (Figure 28). `decisionDue` is the model's own: a decision is owed when the step in progress is
complete (R121, log 3). -/
structure Arbiter where
  permit : Permit
  requests : Vector (Option Level) 12
  marks : Vector Marks 12
  pathClear : Bool
  decisionDue : Bool
  deriving DecidableEq, Repr

/-! ### Transit Tracker -/

/-- A transit record (Figure 31). Its pending targets follow from it: the reject start while it is not REJECTING, the
reject end always, the guard count while its guard is not reached (R137, R140; log 23). -/
structure TransitRecord where
  spliceNumber : SpliceNo
  stand : StandNo
  pasteCount : Count
  rejectStart : Count
  rejectEnd : Count
  guardCount : Count
  rejecting : Bool
  guardReached : Bool
  forced : Bool
  overlap : Bool
  merged : Nat
  deriving DecidableEq, Repr

/-- The transit queue of a path, oldest first (R134), its splice counter (R135) and its REJECT output latch (R143). -/
structure Transit where
  queue : List TransitRecord
  spliceCounter : SpliceNo
  reject : Bool
  deriving DecidableEq, Repr

/-! ### Profile Store -/

/-- The 17 fields of a stand profile, in the order of their numbers (Figure 34). -/
structure Profile where
  path : Nat
  requiredGrade : Nat
  requiredWidth : Nat
  warnDiameter : Nat
  spliceDiameter : Nat
  criticalDiameter : Nat
  defaultOffset : Nat
  pasteLead : Nat
  knifeDistance : Nat
  gateDistance : Nat
  runUpTime : Nat
  settleLength : Nat
  retryDelay : Nat
  brakeTime : Nat
  speedTolerance : Nat
  matchRevolutions : Nat
  pulseWidth : Nat
  deriving DecidableEq, Repr

/-- The outcome of a stand's last PROFILE CHANGE (R156). -/
inductive ProfileOutcome where
  | none | pending | applied | refused
  deriving DecidableEq, Repr

/-- What the Profile Store keeps for a stand (R149, R156). -/
structure StandProfile where
  staged : Profile
  working : Profile
  outcome : ProfileOutcome
  failureField : Nat
  deriving DecidableEq, Repr

/-- The settings of a path (Figure 35). -/
structure PathSettings where
  guardLength : Nat
  rejectLead : Nat
  rejectLength : Nat
  stopTime : Nat
  deriving DecidableEq, Repr

/-! ### Notice Unit -/

/-- The notice classes (section 9.1). -/
inductive NoticeClass where
  | reel | splice | line
  deriving DecidableEq, Repr

/-- The reasons of a detail (section 9.2). -/
inductive Reason where
  | hold | disable | reset | pathStop | stall | markLost | postponed | webBreak | noMarks
  deriving DecidableEq, Repr

/-- The detail of a notice (R161). -/
structure Detail where
  running : Option Handle
  candidate : Option Handle
  spliceNumber : Option SpliceNo
  reason : Option Reason
  deriving DecidableEq, Repr

/-- The content of a notice: its set of causes, one bit for each cause of its class in the order of Figure 38 (the form
in which Figure 50 shows the set), and its detail. -/
structure Notice where
  causes : Byte
  detail : Detail
  deriving DecidableEq, Repr

/-- The open notice with its source and class (R167). -/
structure OpenNotice where
  source : Source
  cls : NoticeClass
  notice : Notice
  deriving DecidableEq, Repr

/-- The Notice Unit (Figure 37): the pending notices of its 40 source and class pairs, the open notice, a rotation
pointer and an enable per class, and the SRQ line (R164). -/
structure NoticeUnit where
  reel : Vector (Option Notice) 12
  splice : Vector (Option Notice) 12
  line : Vector (Option Notice) 16
  opened : Option OpenNotice
  reelPointer : Source
  splicePointer : Source
  linePointer : Source
  reelEnable : Bool
  spliceEnable : Bool
  lineEnable : Bool
  srq : Bool
  deriving DecidableEq, Repr

/-! ### Press Port -/

/-- The content of the parameter buffer (R173). -/
abbrev Buffer := Vector Byte Config.bufferBytes

/-- A command handed to its owning block and not yet taken by it, with the parameters copied at the code write (R174).
`discarded` says that a PORT RESET has discarded its result and reply (R180). -/
structure Handed where
  command : Command
  params : Buffer
  discarded : Bool
  deriving DecidableEq, Repr

/-- The results of Figure 43, 00h apart. -/
inductive Result where
  | done | deferred
  | badCommand | badValue | badHandle | badStand
  | tableFull | duplicateTag | notFound | wrongState | inSplice | armOccupied | queueFull | noCandidate | pathMoving
  | noNotice | noticeOpen | noneOpen | badProfile
  deriving DecidableEq, Repr

/-- What the owning block answers: the result and the bytes of the reply from position 0 (R177). -/
structure Answer where
  result : Result
  reply : List Byte
  deriving DecidableEq, Repr

/-- The Press Port (Figure 40). READY, SRQ, OPEN, the summary, the enables and the identification are read from the
blocks that own them. `dataLines` is what D0 to D7 last carried out of a read of 03h (log 14). -/
structure Port where
  command : Byte
  result : Byte
  busy : Bool
  overrun : Bool
  buffer : Buffer
  index : Fin Config.bufferBytes
  handed : List Handed
  answer : Option Answer
  dataLines : Byte
  deriving DecidableEq, Repr

/-! ### Field Line Interface -/

/-- The output latches of a stand (R186). A pulse output is released, or asserted with the width in milliseconds for
which its pulse timer runs. The maintenance marks say that a level was set by OUTPUT (R187, R188). -/
structure Outputs where
  drive : Bool
  brake : Bool
  paste : Option Nat
  knife : Option Nat
  driveMaintained : Bool
  brakeMaintained : Bool
  deriving DecidableEq, Repr

/-- A filtered input (R184): its present level, its settled level, and whether its 20 ms settling timer runs. -/
structure Filter where
  input : Bool
  settled : Bool
  timer : Bool
  deriving DecidableEq, Repr

/-- The inputs of a stand: its filters (R184), and for each arm whether a mark has been taken since initialisation
(R185, log 9). -/
structure Inputs where
  loadA : Filter
  loadB : Filter
  loadC : Filter
  hold : Filter
  splice : Filter
  webBreak : Filter
  markTakenA : Bool
  markTakenB : Bool
  markTakenC : Bool
  deriving DecidableEq, Repr

/-! ### The machine -/

/-- Where the controller stands between device reset and service (R181). -/
inductive Phase where
  /-- The RESET line is asserted; initialisation has not begun. -/
  | inReset
  | initialising
  | ready
  deriving DecidableEq, Repr

/-- The state of the controller, and the model's queue of waiting commands. -/
structure State where
  phase : Phase
  reels : Vector (Option Reel) 48
  stands : Vector Stand 12
  watchers : Vector Watcher 12
  webs : Vector Web 4
  arbiters : Vector Arbiter 4
  transits : Vector Transit 4
  profiles : Vector StandProfile 12
  settings : Vector PathSettings 4
  notices : NoticeUnit
  port : Port
  outputs : Vector Outputs 12
  inputs : Vector Inputs 12
  pending : List Instr
  deriving DecidableEq, Repr

/-- The faults of the controller. There are none: the spec stops the machine nowhere. -/
inductive Fault where
  deriving DecidableEq, Repr

/-- The refusals of the model. -/
inductive Refusal where
  /-- A row of the opcode table that the model gives no meaning. Raised by an arm of `exec` that has none (there is no
  such arm). Safe: the model stops where the controller goes on. -/
  | notModelled (mnemonic : String)
  deriving DecidableEq, Repr

/-! ### Device reset -/

/-- A Stand Sequencer after device reset (Figure 20, R26, R102). -/
def Stand.reset : Stand where
  state := .off
  running := none
  queue := []
  warn := false
  splice := false
  critical := false
  level := none
  hold := false
  lock := false
  stall := false
  webBroken := false
  runUpTimer := none
  backoffTimer := none
  brakeTimer := none
  deferredReset := false
  deferredDisable := false
  deferredProfile := false
  context := none

/-- A run-mark watcher after device reset (R53). -/
def Watcher.reset : Watcher where
  state := .idle
  arm := none
  path := none
  reference := 0
  pLast := 0
  deadline := none
  reckoningCount := none

/-- The web of a path after device reset (R42). -/
def Web.reset : Web where
  counter := 0
  moving := false
  motionTimer := none
  pulseTaken := false

/-- No fair-share mark (R132). -/
def Marks.clear : Marks where
  early := false
  normal := false
  urgent := false

/-- A Permit Arbiter after device reset (R132). -/
def Arbiter.reset : Arbiter where
  permit := .free
  requests := Vector.replicate 12 none
  marks := Vector.replicate 12 Marks.clear
  pathClear := true
  decisionDue := false

/-- The Transit Tracker's part for a path after device reset (R148). -/
def Transit.reset : Transit where
  queue := []
  spliceCounter := 0
  reject := false

/-- The defaults of a profile (Figure 34). -/
def Profile.default : Profile where
  path := 0
  requiredGrade := 0
  requiredWidth := 0
  warnDiameter := 300
  spliceDiameter := 200
  criticalDiameter := 150
  defaultOffset := 0
  pasteLead := 150
  knifeDistance := 600
  gateDistance := 60000
  runUpTime := 300
  settleLength := 5000
  retryDelay := 10
  brakeTime := 50
  speedTolerance := 10
  matchRevolutions := 3
  pulseWidth := 40

/-- A stand's part of the Profile Store after device reset (R149, R156). -/
def StandProfile.reset : StandProfile where
  staged := Profile.default
  working := Profile.default
  outcome := .none
  failureField := 0

/-- The defaults of the path settings (Figure 35). -/
def PathSettings.default : PathSettings where
  guardLength := 20000
  rejectLead := 1000
  rejectLength := 8000
  stopTime := 500

/-- The Notice Unit after device reset (Figure 37, R170). -/
def NoticeUnit.reset : NoticeUnit where
  reel := Vector.replicate 12 none
  splice := Vector.replicate 12 none
  line := Vector.replicate 16 none
  opened := none
  reelPointer := 15
  splicePointer := 15
  linePointer := 15
  reelEnable := false
  spliceEnable := false
  lineEnable := false
  srq := false

/-- The Press Port after device reset (Figure 40, R181). -/
def Port.reset : Port where
  command := 0
  result := 0
  busy := false
  overrun := false
  buffer := Vector.replicate Config.bufferBytes 0
  index := 0
  handed := []
  answer := none
  dataLines := 0

/-- The output latches of a stand after device reset (R186, R188). -/
def Outputs.reset : Outputs where
  drive := false
  brake := false
  paste := none
  knife := none
  driveMaintained := false
  brakeMaintained := false

/-- A filter with its timer stopped, its input and settled level inactive (log 19). -/
def Filter.inactive : Filter where
  input := false
  settled := false
  timer := false

/-- The inputs of a stand with every line inactive (log 19). -/
def Inputs.inactive : Inputs where
  loadA := Filter.inactive
  loadB := Filter.inactive
  loadC := Filter.inactive
  hold := Filter.inactive
  splice := Filter.inactive
  webBreak := Filter.inactive
  markTakenA := false
  markTakenB := false
  markTakenC := false

/-- The controller right after device reset, with the RESET line released: every block at its value after device reset,
initialisation running (R181; log 11). -/
def State.reset : State where
  phase := .initialising
  reels := Vector.replicate 48 none
  stands := Vector.replicate 12 Stand.reset
  watchers := Vector.replicate 12 Watcher.reset
  webs := Vector.replicate 4 Web.reset
  arbiters := Vector.replicate 4 Arbiter.reset
  transits := Vector.replicate 4 Transit.reset
  profiles := Vector.replicate 12 StandProfile.reset
  settings := Vector.replicate 4 PathSettings.default
  notices := NoticeUnit.reset
  port := Port.reset
  outputs := Vector.replicate 12 Outputs.reset
  inputs := Vector.replicate 12 Inputs.inactive
  pending := []

end Sys2Proof.Machine
end

