-- ==== Sys2Proof/Machine/Flags.lean ====
section
/-! DEFINITION. The computations of the controller: counter comparison, diameter, circumference and length, dead
reckoning, speed tolerance and fire point, the threshold flags and the level they call for, the ranges of profile fields
and path settings. -/

namespace Sys2Proof.Machine

/-! ### Counts -/

/-- A count is reached when the counter minus it, modulo 2^32, is less than 2^31 (R40). -/
def reached (counter target : Count) : Bool :=
  decide ((counter - target).toNat < 2147483648)

/-- How far a count lies after a reference count, modulo 2^32 (R139). -/
def distanceAfter (reference count : Count) : Nat :=
  (count - reference).toNat

/-- The earlier of two counts, judged from a reference count (R139). -/
def earlierFrom (reference a b : Count) : Count :=
  if distanceAfter reference b < distanceAfter reference a then b else a

/-- The later of two counts, judged from a reference count (R139). -/
def laterFrom (reference a b : Count) : Count :=
  if distanceAfter reference a < distanceAfter reference b then b else a

/-- A count a distance after another, modulo 2^32. -/
def advance (count : Count) (distance : Nat) : Count :=
  count + BitVec.ofNat 32 distance

/-! ### Diameter and length (00_scope.md, "Arithmetic") -/

/-- The circumference in millimetres of a diameter. -/
def circumferenceOf (diameter : Nat) : Nat :=
  diameter * 31416 / 10000

/-- The diameter in millimetres from the web pulses of one revolution (R45). -/
def diameterOf (pulses : Nat) : Nat :=
  pulses * 10000 / 31416

/-- The length remaining in metres (R4), held at 65,535. -/
def lengthOf (diameter core caliper : Nat) : Nat :=
  min (31416 * (diameter * diameter - core * core) / (40000 * caliper)) 65535

/-- One bit of the integer square root after another, from bit `bits - 1` down. -/
def squareRootFrom (n : Nat) : Nat → Nat → Nat
  | 0, root => root
  | bits + 1, root =>
    squareRootFrom n bits
      (if (root + 2 ^ bits) * (root + 2 ^ bits) ≤ n then root + 2 ^ bits else root)

/-- The integer square root, rounded down, of a number below 2^40. -/
def squareRoot (n : Nat) : Nat :=
  squareRootFrom n 20 0

/-- The diameter derived from a length remaining (R48). -/
def reckonedDiameter (core caliper length : Nat) : Nat :=
  squareRoot (core * core + 40000 * caliper * length / 31416)

/-! ### Speed match and fire point -/

/-- Whether a revolution of `pulses` is in tolerance of the circumference (R75). -/
def inTolerance (pulses circumference perMille : Nat) : Bool :=
  let allowed := circumference * perMille / 1000
  decide (pulses ≤ circumference + allowed) && decide (circumference ≤ pulses + allowed)

/-- The fire point: the remainder of the pattern offset less the paste lead on division by the circumference (R77). -/
def firePointOf (circumference offset lead : Nat) : Nat :=
  if lead ≤ offset then (offset - lead) % circumference
  else if (lead - offset) % circumference = 0 then 0
  else circumference - (lead - offset) % circumference

/-! ### Threshold flags and levels -/

/-- The order of the levels, URGENT above NORMAL above EARLY above none (R122, R109). -/
def levelRank : Option Level → Nat
  | none => 0
  | some .early => 1
  | some .normal => 2
  | some .urgent => 3

/-- The higher of two levels (R109). -/
def higherLevel (a b : Option Level) : Option Level :=
  if levelRank a < levelRank b then b else a

/-- The level that a stand's flags call for (section 4.3). -/
def levelCalledFor (st : Stand) : Option Level :=
  if st.splice then some .urgent else if st.warn then some .normal else none

/-- The diameter of a profile at or below which a threshold flag is set (Figure 17). -/
def thresholdDiameter (w : Profile) : Threshold → Nat
  | .warn => w.warnDiameter
  | .splice => w.spliceDiameter
  | .critical => w.criticalDiameter

/-- A threshold flag of a stand (R54). -/
def thresholdFlag (st : Stand) : Threshold → Bool
  | .warn => st.warn
  | .splice => st.splice
  | .critical => st.critical

/-- A stand with a threshold flag set. -/
def withThresholdFlag (st : Stand) : Threshold → Stand
  | .warn => { st with warn := true }
  | .splice => { st with splice := true }
  | .critical => { st with critical := true }

/-- A stand in RUN-UP or PASTE: its splice is before the point of no return (section 5.1). -/
def beforePaste : StandState → Bool
  | .runUp | .paste => true
  | .off | .idle | .running | .waiting | .backoff | .held | .locked | .cut | .settle => false

/-- A stand in CUT or SETTLE: its splice is past the point of no return (section 5.1). -/
def afterPaste : StandState → Bool
  | .cut | .settle => true
  | .off | .idle | .running | .waiting | .backoff | .held | .locked | .runUp | .paste => false

/-- A stand that is splicing (section 4.1). -/
def splicing (state : StandState) : Bool :=
  beforePaste state || afterPaste state

/-! ### Profiles and path settings -/

/-- The path that a profile names. In a working profile the field lies in 0 to 3 (R149); the remainder is taken for the
sake of states that no run reaches (log 24). -/
def profilePath (w : Profile) : PathNo :=
  Fin.ofNat 4 w.path

/-- The value of a profile field by its number (Figure 34). -/
def profileField (w : Profile) : Nat → Nat
  | 1 => w.path
  | 2 => w.requiredGrade
  | 3 => w.requiredWidth
  | 4 => w.warnDiameter
  | 5 => w.spliceDiameter
  | 6 => w.criticalDiameter
  | 7 => w.defaultOffset
  | 8 => w.pasteLead
  | 9 => w.knifeDistance
  | 10 => w.gateDistance
  | 11 => w.runUpTime
  | 12 => w.settleLength
  | 13 => w.retryDelay
  | 14 => w.brakeTime
  | 15 => w.speedTolerance
  | 16 => w.matchRevolutions
  | 17 => w.pulseWidth
  | _ => 0

/-- A profile with one field replaced, by the field's number (R150). -/
def withProfileField (w : Profile) (field value : Nat) : Profile :=
  match field with
  | 1 => { w with path := value }
  | 2 => { w with requiredGrade := value }
  | 3 => { w with requiredWidth := value }
  | 4 => { w with warnDiameter := value }
  | 5 => { w with spliceDiameter := value }
  | 6 => { w with criticalDiameter := value }
  | 7 => { w with defaultOffset := value }
  | 8 => { w with pasteLead := value }
  | 9 => { w with knifeDistance := value }
  | 10 => { w with gateDistance := value }
  | 11 => { w with runUpTime := value }
  | 12 => { w with settleLength := value }
  | 13 => { w with retryDelay := value }
  | 14 => { w with brakeTime := value }
  | 15 => { w with speedTolerance := value }
  | 16 => { w with matchRevolutions := value }
  | 17 => { w with pulseWidth := value }
  | _ => w

/-- Whether a value lies between two bounds, both included. -/
def within (low high value : Nat) : Bool :=
  decide (low ≤ value) && decide (value ≤ high)

/-- Whether a value lies in the range of a profile field, by the field's number (Figure 34). -/
def profileFieldInRange (field value : Nat) : Bool :=
  match field with
  | 1 => within 0 3 value
  | 2 => within 0 63 value
  | 3 => within 0 4 value
  | 4 => within 150 1000 value
  | 5 => within 120 900 value
  | 6 => within 100 800 value
  | 7 => within 0 999 value
  | 8 => within 0 999 value
  | 9 => within 100 5000 value
  | 10 => within 1000 200000 value
  | 11 => within 10 600 value
  | 12 => within 1000 50000 value
  | 13 => within 1 60 value
  | 14 => within 5 200 value
  | 15 => within 1 30 value
  | 16 => within 1 8 value
  | 17 => value == 20 || value == 40 || value == 60 || value == 80
  | _ => false

/-- The numbers of the profile fields, in order. -/
def profileFieldNumbers : List Nat :=
  [1, 2, 3, 4, 5, 6, 7, 8, 9, 10, 11, 12, 13, 14, 15, 16, 17]

/-- Whether path settings lie in the ranges of Figure 35. -/
def settingsInRange (g : PathSettings) : Bool :=
  within 0 100000 g.guardLength && within 0 10000 g.rejectLead && within 1000 100000 g.rejectLength &&
    within 100 5000 g.stopTime

end Sys2Proof.Machine
end

