-- ==== Sys2Proof/Machine/Operands.lean ====
section
/-! DEFINITION. The operands of the commands: how parameters are read from the copied buffer and how replies are written,
by the convention of R178, and the codes that parameters and replies use. -/

namespace Sys2Proof.Machine

/-! ### Parameters -/

/-- The byte of a parameter at a buffer position. -/
def byteAt (ps : Buffer) (position : Nat) : Nat :=
  ((ps[position]?).getD 0).toNat

/-- A parameter of several bytes, least significant byte first (R178). -/
def valueAt (ps : Buffer) (position : Nat) : Nat → Nat
  | 0 => 0
  | bytes + 1 => byteAt ps position + 256 * valueAt ps (position + 1) bytes

/-- An arm by its code (R178). -/
def armOfCode : Nat → Option Arm
  | 0 => some .a
  | 1 => some .b
  | 2 => some .c
  | _ => none

/-- A notice class by its code (R178). -/
def classOfCode : Nat → Option NoticeClass
  | 0 => some .reel
  | 1 => some .splice
  | 2 => some .line
  | _ => none

/-- An optional parameter: its presence byte, then its value. The outer `none` is a presence byte that is neither 0
nor 1, or a present value out of range (BAD-VALUE, R178, R3). -/
def optionalValue (presence value : Nat) (inRange : Nat → Bool) : Option (Option Nat) :=
  match presence with
  | 0 => some none
  | 1 => if inRange value then some (some value) else none
  | _ => none

/-! ### Ranges of record values (Figure 6) -/

def tagInRange (v : Nat) : Bool := within 1 4294967295 v
def gradeInRange (v : Nat) : Bool := within 1 63 v
def widthInRange (v : Nat) : Bool := within 1 4 v
def coreInRange (v : Nat) : Bool := within 70 160 v
def diameterInRange (v : Nat) : Bool := within 100 1400 v
def caliperInRange (v : Nat) : Bool := within 40 150 v
def offsetInRange (v : Nat) : Bool := within 0 999 v

/-! ### Codes and bytes of replies -/

/-- A number in a number of bytes, least significant byte first (R178). -/
def leBytes : Nat → Nat → List Byte
  | 0, _ => []
  | bytes + 1, v => BitVec.ofNat 8 v :: leBytes bytes (v / 256)

/-- A one-byte number. -/
def byteOf (v : Nat) : Byte := BitVec.ofNat 8 v

/-- A flag: 0 clear, 1 set (R178). -/
def flagByte (b : Bool) : Byte := if b then 1 else 0

/-- A byte whose bits, from bit 0, are the given flags. -/
def bitsByte : List Bool → Byte
  | [] => 0
  | b :: rest => flagByte b ||| (bitsByte rest <<< 1)

/-- A handle, or FFh when absent (R178). -/
def handleByte : Option Handle → Byte
  | some h => byteOf h.val
  | none => 0xFF

/-- A stand, or FFh when absent (R178). -/
def standByte : Option StandNo → Byte
  | some n => byteOf n.val
  | none => 0xFF

/-- The code of an arm (R178). -/
def armCode : Arm → Byte
  | .a => 0
  | .b => 1
  | .c => 2

/-- An arm, or FFh when absent (R178). -/
def armByte : Option Arm → Byte
  | some arm => armCode arm
  | none => 0xFF

/-- The code of a reel state (Figure 44). -/
def reelStateCode : ReelState → Byte
  | .staged => 0
  | .mounted => 1
  | .prepared => 2
  | .running => 3
  | .butt => 4

/-- A reel state in a reply, FFh for a record removed (R178). -/
def reelStateByte : Option ReelState → Byte
  | some r => reelStateCode r
  | none => 0xFF

/-- The code of a stand state (Figure 45). -/
def standStateCode : StandState → Byte
  | .off => 0
  | .idle => 1
  | .running => 2
  | .waiting => 3
  | .backoff => 4
  | .held => 5
  | .locked => 6
  | .runUp => 7
  | .paste => 8
  | .cut => 9
  | .settle => 10

/-- The code of a request level (Figure 45). -/
def levelCode (l : Option Level) : Byte := byteOf (levelRank l)

/-- The code of a watch state (Figure 45). -/
def watchStateCode : WatchState → Byte
  | .idle => 0
  | .starting => 1
  | .timing => 2
  | .reckoning => 3

/-- The code of a profile outcome (Figure 45). -/
def outcomeCode : ProfileOutcome → Byte
  | .none => 0
  | .pending => 1
  | .applied => 2
  | .refused => 3

/-- The code of a notice class (R178). -/
def classCode : NoticeClass → Byte
  | .reel => 0
  | .splice => 1
  | .line => 2

/-- The code of a reason (Figure 50), 00h when absent. -/
def reasonByte : Option Reason → Byte
  | none => 0
  | some .hold => 1
  | some .disable => 2
  | some .reset => 3
  | some .pathStop => 4
  | some .stall => 5
  | some .markLost => 6
  | some .postponed => 7
  | some .webBreak => 8
  | some .noMarks => 9

/-- The code of a result (Figure 43). -/
def resultCode : Result → Byte
  | .done => 0x01
  | .deferred => 0x02
  | .badCommand => 0x10
  | .badValue => 0x11
  | .badHandle => 0x12
  | .badStand => 0x13
  | .tableFull => 0x20
  | .duplicateTag => 0x21
  | .notFound => 0x22
  | .wrongState => 0x23
  | .inSplice => 0x24
  | .armOccupied => 0x25
  | .queueFull => 0x26
  | .noCandidate => 0x27
  | .pathMoving => 0x28
  | .noNotice => 0x30
  | .noticeOpen => 0x31
  | .noneOpen => 0x32
  | .badProfile => 0x33

/-- A cleared buffer with a reply placed from position 0 (R177). -/
def bufferOfReply (reply : List Byte) : Buffer :=
  Vector.ofFn fun i => (reply[i.val]?).getD 0

end Sys2Proof.Machine
end

