-- ==== Sys2Proof/Machine/Ops.lean ====
section
/-! DEFINITION. The named operations over the blocks of the controller: reading and updating one block of the state, the
filing of causes (R162) with the judging of SRQ (R164), and the operations that several steps share on a record, a
watcher, a permit and an output. -/

namespace Sys2Proof.Machine

/-! ### Reading the blocks -/

namespace State

/-- The record of a handle, if its slot is occupied. -/
def reel (s : State) (h : Handle) : Option Reel := s.reels[h]

/-- A stand. -/
def stand (s : State) (n : StandNo) : Stand := s.stands[n]

/-- The run-mark watcher of a stand. -/
def watcher (s : State) (n : StandNo) : Watcher := s.watchers[n]

/-- The web of a path. -/
def web (s : State) (p : PathNo) : Web := s.webs[p]

/-- The Permit Arbiter of a path. -/
def arbiter (s : State) (p : PathNo) : Arbiter := s.arbiters[p]

/-- The Transit Tracker's part for a path. -/
def transit (s : State) (p : PathNo) : Transit := s.transits[p]

/-- A stand's part of the Profile Store. -/
def profile (s : State) (n : StandNo) : StandProfile := s.profiles[n]

/-- The working profile of a stand (R149). -/
def working (s : State) (n : StandNo) : Profile := (s.profile n).working

/-- The settings of a path. -/
def setting (s : State) (p : PathNo) : PathSettings := s.settings[p]

/-- The output latches of a stand. -/
def output (s : State) (n : StandNo) : Outputs := s.outputs[n]

/-- The inputs of a stand. -/
def standInputs (s : State) (n : StandNo) : Inputs := s.inputs[n]

/-! ### Updating one block -/

/-- A change of the slot of a handle. -/
def setReel (s : State) (h : Handle) (r : Option Reel) : State :=
  { s with reels := s.reels.set h r }

/-- A change of the record of a handle, none where the slot is free. -/
def modReel (s : State) (h : Handle) (f : Reel → Reel) : State :=
  s.setReel h ((s.reel h).map f)

/-- A change of a stand. -/
def modStand (s : State) (n : StandNo) (f : Stand → Stand) : State :=
  { s with stands := s.stands.set n (f (s.stand n)) }

/-- A change of a stand's watcher. -/
def modWatcher (s : State) (n : StandNo) (f : Watcher → Watcher) : State :=
  { s with watchers := s.watchers.set n (f (s.watcher n)) }

/-- A change of a path's web. -/
def modWeb (s : State) (p : PathNo) (f : Web → Web) : State :=
  { s with webs := s.webs.set p (f (s.web p)) }

/-- A change of a path's arbiter. -/
def modArbiter (s : State) (p : PathNo) (f : Arbiter → Arbiter) : State :=
  { s with arbiters := s.arbiters.set p (f (s.arbiter p)) }

/-- A change of the Transit Tracker's part for a path. -/
def modTransit (s : State) (p : PathNo) (f : Transit → Transit) : State :=
  { s with transits := s.transits.set p (f (s.transit p)) }

/-- A change of a stand's part of the Profile Store. -/
def modProfile (s : State) (n : StandNo) (f : StandProfile → StandProfile) : State :=
  { s with profiles := s.profiles.set n (f (s.profile n)) }

/-- New settings of a path. -/
def setSetting (s : State) (p : PathNo) (g : PathSettings) : State :=
  { s with settings := s.settings.set p g }

/-- A change of a stand's output latches. -/
def modOutputs (s : State) (n : StandNo) (f : Outputs → Outputs) : State :=
  { s with outputs := s.outputs.set n (f (s.output n)) }

/-- A change of a stand's inputs. -/
def modInputs (s : State) (n : StandNo) (f : Inputs → Inputs) : State :=
  { s with inputs := s.inputs.set n (f (s.standInputs n)) }

/-- A change of the Notice Unit. -/
def modNotices (s : State) (f : NoticeUnit → NoticeUnit) : State :=
  { s with notices := f s.notices }

/-- A change of the Press Port. -/
def modPort (s : State) (f : Port → Port) : State :=
  { s with port := f s.port }

/-- A change of the queue of waiting commands. -/
def withPending (s : State) (q : List Instr) : State :=
  { s with pending := q }

/-! ### Views -/

/-- The path of a stand, by its working profile. -/
def pathOf (s : State) (n : StandNo) : PathNo := profilePath (s.working n)

/-- The counter of a stand's path. -/
def countOf (s : State) (n : StandNo) : Count := (s.web (s.pathOf n)).counter

/-- The record of a stand's running reel, if it has one. -/
def runningReel (s : State) (n : StandNo) : Option Reel :=
  (s.stand n).running.bind s.reel

/-- The handle of the record that an arm holds, if any (R6). -/
def armHolds (s : State) (n : StandNo) (arm : Arm) : Option Handle :=
  (List.finRange 48).find? fun h => ((s.reel h).bind (·.place)) == some ⟨n, arm⟩

/-- The handle of the live record that carries a tag, if any (R2, R13). -/
def handleOfTag (s : State) (tag : Nat) : Option Handle :=
  (List.finRange 48).find? fun h => (s.reel h).any fun r => r.tag == tag

/-- The free slot with the lowest handle, if any (R1). -/
def lowestFree (s : State) : Option Handle :=
  (List.finRange 48).find? fun h => (s.reel h).isNone

end State

/-! ### The Notice Unit -/

/-- The causes of class REEL, in the order of Figure 38. -/
inductive ReelCause where
  | unregisteredLoad | mismatch | candidateLost | noCandidate | runoutNear
  deriving DecidableEq, Repr

/-- The causes of class SPLICE, in the order of Figure 38. -/
inductive SpliceCause where
  | complete | failed | aborted | forced | locked
  deriving DecidableEq, Repr

/-- The causes of class LINE, in the order of Figure 38. -/
inductive LineCause where
  | markLost | markRestored | webBreak | runout | pathStopped | pathStarted | overlap | merged
  deriving DecidableEq, Repr

/-- The bit of a REEL cause in a notice (Figure 50). -/
def ReelCause.mask : ReelCause → Byte
  | .unregisteredLoad => 0x01
  | .mismatch => 0x02
  | .candidateLost => 0x04
  | .noCandidate => 0x08
  | .runoutNear => 0x10

/-- The bit of a SPLICE cause in a notice (Figure 50). -/
def SpliceCause.mask : SpliceCause → Byte
  | .complete => 0x01
  | .failed => 0x02
  | .aborted => 0x04
  | .forced => 0x08
  | .locked => 0x10

/-- The bit of a LINE cause in a notice (Figure 50). -/
def LineCause.mask : LineCause → Byte
  | .markLost => 0x01
  | .markRestored => 0x02
  | .webBreak => 0x04
  | .runout => 0x08
  | .pathStopped => 0x10
  | .pathStarted => 0x20
  | .overlap => 0x40
  | .merged => 0x80

/-- A detail with every field absent. -/
def Detail.empty : Detail := ⟨none, none, none, none⟩

/-- The source of a stand (section 9.1). -/
def standSource (n : StandNo) : Source := ⟨n.val, by omega⟩

/-- The source of a path (section 9.1). -/
def pathSource (p : PathNo) : Source := ⟨12 + p.val, by omega⟩

/-- The pending notice of a pair after a filing: the cause joins its set, and the detail is replaced whole (R162). -/
def gather (old : Option Notice) (mask : Byte) (d : Detail) : Notice :=
  { causes := (old.map (·.causes)).getD 0 ||| mask, detail := d }

namespace NoticeUnit

/-- Whether any notice of a class is pending (R165). -/
def anyPending (u : NoticeUnit) : NoticeClass → Bool
  | .reel => u.reel.toList.any Option.isSome
  | .splice => u.splice.toList.any Option.isSome
  | .line => u.line.toList.any Option.isSome

/-- Whether a class is enabled (R163). -/
def enabled (u : NoticeUnit) : NoticeClass → Bool
  | .reel => u.reelEnable
  | .splice => u.spliceEnable
  | .line => u.lineEnable

/-- The SRQ condition: no notice is open and some enabled class has a pending notice (R164). -/
def srqCondition (u : NoticeUnit) : Bool :=
  u.opened.isNone &&
    ((u.enabled .reel && u.anyPending .reel) || (u.enabled .splice && u.anyPending .splice) ||
      (u.enabled .line && u.anyPending .line))

/-- The judging of SRQ: the line is driven to the level of the condition (R164). -/
def judge (u : NoticeUnit) : NoticeUnit :=
  { u with srq := u.srqCondition }

end NoticeUnit

namespace State

/-- A stand files a REEL cause for its source (R162). -/
def fileReel (s : State) (n : StandNo) (cause : ReelCause) (d : Detail) : State :=
  s.modNotices fun u => { u with reel := u.reel.set n (some (gather u.reel[n] cause.mask d)) }.judge

/-- A stand files a SPLICE cause for its source (R162). -/
def fileSplice (s : State) (n : StandNo) (cause : SpliceCause) (d : Detail) : State :=
  s.modNotices fun u => { u with splice := u.splice.set n (some (gather u.splice[n] cause.mask d)) }.judge

/-- A LINE cause is filed for a source (R162). -/
def fileLine (s : State) (src : Source) (cause : LineCause) (d : Detail) : State :=
  s.modNotices fun u => { u with line := u.line.set src (some (gather u.line[src] cause.mask d)) }.judge

/-- The pending notices of a stand's source are removed in all three classes (R169). -/
def removeStandNotices (s : State) (n : StandNo) : State :=
  s.modNotices fun u =>
    { u with
      reel := u.reel.set n none
      splice := u.splice.set n none
      line := u.line.set (standSource n) none }.judge

/-! ### The queue and the records -/

/-- A handle leaves a stand's order queue, which closes up (R30). -/
def leaveQueue (s : State) (n : StandNo) (h : Handle) : State :=
  s.modStand n fun st => { st with queue := st.queue.filter (· != h) }

/-- The record of a handle becomes RUNNING, with the splice number of a cut or none (R23). -/
def becomeRunning (s : State) (h : Handle) (number : Option SpliceNo) : State :=
  s.modReel h fun r =>
    { r with
      state := .running
      lock := false
      mismatch := false
      deadReckoning := false
      stale := false
      spliceNumber := number }

/-- The record of a handle becomes BUTT (R24). -/
def becomeButt (s : State) (h : Handle) : State :=
  s.modReel h fun r => { r with state := .butt, deadReckoning := false, stale := false }

/-! ### The run-mark watcher -/

/-- The watcher of a stand enters IDLE: its deadline is cancelled, its reckoning count dropped, and it follows nothing
(R51, R52; log 16). -/
def stopWatcher (s : State) (n : StandNo) : State :=
  s.modWatcher n fun w =>
    { w with state := .idle, arm := none, path := none, deadline := none, reckoningCount := none }

/-- The watcher of a stand starts on its running reel (R44). -/
def startWatcher (s : State) (n : StandNo) : State :=
  match s.runningReel n with
  | none => s
  | some r =>
    let count := s.countOf n
    let pLast := circumferenceOf r.diameter
    s.modWatcher n fun w =>
      { w with
        state := if r.deadReckoning then .reckoning else .starting
        arm := r.place.map (·.arm)
        path := some (s.pathOf n)
        reference := count
        pLast := pLast
        deadline := if r.deadReckoning then none else some (advance count (2 * pLast))
        reckoningCount := if r.deadReckoning then some count else none }

/-- The watcher of a stand moves to the stand's path after a change of path (R46). -/
def moveWatcher (s : State) (n : StandNo) : State :=
  match (s.watcher n).state with
  | .idle => s
  | .reckoning =>
    s.modWatcher n fun w => { w with path := some (s.pathOf n), reckoningCount := some (s.countOf n) }
  | .starting | .timing => s.startWatcher n

/-- A stand's running reel ceases to be RUNNING: it becomes BUTT (R24), its watch ends (R52), and the threshold flags
and the web-broken flag are cleared (R55, R86). -/
def endRunningReel (s : State) (n : StandNo) : State :=
  match (s.stand n).running with
  | none => s
  | some h =>
    ((s.becomeButt h).stopWatcher n).modStand n fun st =>
      { st with running := none, warn := false, splice := false, critical := false, webBroken := false }

/-! ### Requests and the permit -/

/-- A decision of a path's arbiter is owed when the step in progress is complete (R121). -/
def promptDecision (s : State) (p : PathNo) : State :=
  s.modArbiter p fun b => { b with decisionDue := true }

/-- The entry of a stand is set in a path's requests, none to remove it. -/
def setRequest (s : State) (p : PathNo) (n : StandNo) (l : Option Level) : State :=
  s.modArbiter p fun b => { b with requests := b.requests.set n l }

/-- A request arrives at a path's arbiter, or its level changes: a decision event (R118, R119). -/
def raiseRequest (s : State) (p : PathNo) (n : StandNo) (l : Option Level) : State :=
  (s.setRequest p n l).promptDecision p

/-- A request is withdrawn from a path's arbiter: a decision event (R118). -/
def withdrawRequest (s : State) (p : PathNo) (n : StandNo) : State :=
  (s.setRequest p n none).promptDecision p

/-- The permit of a path changes. -/
def setPermit (s : State) (p : PathNo) (permit : Permit) : State :=
  s.modArbiter p fun b => { b with permit := permit }

/-- The permit of a path becomes FREE: a decision event (R129, R130). -/
def freePermit (s : State) (p : PathNo) : State :=
  (s.setPermit p .free).promptDecision p

/-- The fair-share marks of a stand at a path's arbiter are cleared (R123). -/
def clearMarks (s : State) (p : PathNo) (n : StandNo) : State :=
  s.modArbiter p fun b => { b with marks := b.marks.set n Marks.clear }

/-! ### Outputs -/

/-- A PASTE or KNIFE pulse starts, for the pulse width of the stand's working profile (R62, R186). -/
def startPulse (s : State) (n : StandNo) (out : PulseOutput) : State :=
  s.modOutputs n fun o =>
    match out with
    | .paste => { o with paste := some (s.working n).pulseWidth }
    | .knife => { o with knife := some (s.working n).pulseWidth }

/-- DRIVE is set to a level (R61). -/
def setDrive (s : State) (n : StandNo) (level : Bool) : State :=
  s.modOutputs n fun o => { o with drive := level }

end State

end Sys2Proof.Machine
end

