-- ==== Sys2Proof/Machine/Flow.lean ====
section
/-! DEFINITION. The course of a stand that several steps share: taking a splice by a grant or by force (R72, R73, R125),
entering WAITING and RUNNING (R71, R118), threshold events (R65 to R67), the order queue (R28 to R31, R35), abandonment
(R92), the application of a profile (R152 to R155), the reset effects (R101), entry to OFF (R98), the deferred actions
(R103), and the arbiter's decision (R121 to R128).

A forced take can displace a stand, which may in its turn enter WAITING and take its splice by force (R126). The
operations that can lead to a forced take therefore carry it as an argument `force`, and `forcedTake` ties the knot over
the bounded depth of `Config.forcedNesting`. -/

namespace Sys2Proof.Machine

/-! ### Tests and choices on the parts of a block -/

/-- Whether a stand is splicing without the permit before its paste (R128). -/
def splicesWithoutPermit (st : Stand) : Bool :=
  beforePaste st.state && st.context.any fun c => c.forced && !c.permitHeld

/-- A fair-share mark of a stand (R123). -/
def markOf (m : Marks) : Level → Bool
  | .early => m.early
  | .normal => m.normal
  | .urgent => m.urgent

/-- A stand's marks with the mark of one level set to a value. -/
def withMark (m : Marks) (l : Level) (value : Bool) : Marks :=
  match l with
  | .early => { m with early := value }
  | .normal => { m with normal := value }
  | .urgent => { m with urgent := value }

/-- The stands waiting at a level of a path's requests, in number order. -/
def waitingAt (b : Arbiter) (l : Level) : List StandNo :=
  (List.finRange 12).filter fun n => b.requests[n] = some l

/-- The highest level present among the requests, with the stands waiting at it (R122, step 1). -/
def highestWaiting (b : Arbiter) : Option (Level × List StandNo) :=
  if waitingAt b .urgent ≠ [] then some (.urgent, waitingAt b .urgent)
  else if waitingAt b .normal ≠ [] then some (.normal, waitingAt b .normal)
  else if waitingAt b .early ≠ [] then some (.early, waitingAt b .early)
  else none

/-- The join test of a profile (R27). -/
def joinTest (w : Profile) (r : Reel) : Bool :=
  (w.requiredGrade == 0 || w.requiredGrade == r.grade) && (w.requiredWidth == 0 || w.requiredWidth == r.width)

namespace State

/-! ### Taking a splice -/

/-- A stand takes its splice: it locks its candidate, makes its splice context, asserts DRIVE, starts its run-up timer
and enters RUN-UP (R72; R73 for a forced take). -/
def takeSplice (s : State) (n : StandNo) (forced held : Bool) : State :=
  match (s.stand n).queue.head? with
  | none => s
  | some h =>
    let record := s.reel h
    ((s.modReel h fun r => { r with lock := true }).setDrive n true).modStand n fun st =>
      { st with
        state := .runUp
        runUpTimer := some (s.working n).runUpTime
        context := some
          { fresh := h
            freshArm := (record.bind (·.place)).map (·.arm)
            former := st.running
            forced := forced
            permitHeld := held
            circumference := circumferenceOf ((record.map (·.diameter)).getD 0)
            matchCount := 0
            lastMark := none
            watchArmed := false
            watchDeadline := none
            firePoint := none
            phaseTarget := none
            pasteCount := none
            spliceNumber := none
            knifeTarget := none
            settleTarget := none
            settleMarks := 0
            breakInCut := false } }

/-- A stand enters WAITING at a level. With its critical flag set it takes its splice by force at the same event, and
otherwise its request arrives at its path's arbiter (R118, R125). -/
def enterWaitingWith (force : StandNo → State → State) (s : State) (n : StandNo) (l : Option Level) : State :=
  let w := s.modStand n fun st => { st with state := .waiting, level := l }
  if (w.stand n).critical then force n w else w.raiseRequest (w.pathOf n) n l

/-- The reading of R71, which R29 makes too: a RUNNING stand with a candidate whose flags call for a level enters
WAITING at it. -/
def readFlagsWith (force : StandNo → State → State) (s : State) (n : StandNo) : State :=
  let st := s.stand n
  if st.queue ≠ [] ∧ levelCalledFor st ≠ none then s.enterWaitingWith force n (levelCalledFor st) else s

/-- A waiting stand's level rises: a level change at its path's arbiter (R119). -/
def raiseLevel (s : State) (n : StandNo) (l : Level) : State :=
  (s.modStand n fun st => { st with level := some l }).raiseRequest (s.pathOf n) n (some l)

/-! ### Threshold events -/

/-- The causes that a threshold event files in every state: with the queue empty, NO-CANDIDATE for the warn flag (R36)
and RUNOUT-NEAR for the critical flag (R65, R67). -/
def fileThreshold (s : State) (n : StandNo) (t : Threshold) : State :=
  let st := s.stand n
  if st.queue = [] then
    match t with
    | .warn => s.fileReel n .noCandidate { Detail.empty with running := st.running }
    | .splice => s
    | .critical => s.fileReel n .runoutNear { Detail.empty with running := st.running }
  else s

/-- A threshold event in RUNNING (R65). -/
def thresholdInRunning (force : StandNo → State → State) (s : State) (n : StandNo) (t : Threshold) : State :=
  if (s.stand n).queue = [] then s.fileThreshold n t
  else
    match t with
    | .warn => s.enterWaitingWith force n (some .normal)
    | .splice => s.enterWaitingWith force n (some .urgent)
    | .critical => s.enterWaitingWith force n (some .urgent)

/-- A threshold event in WAITING (R66). -/
def thresholdInWaiting (force : StandNo → State → State) (s : State) (n : StandNo) (t : Threshold) : State :=
  match t with
  | .warn => if levelRank (s.stand n).level < 2 then s.raiseLevel n .normal else s
  | .splice => if levelRank (s.stand n).level < 3 then s.raiseLevel n .urgent else s
  | .critical => force n s

/-- A threshold event in RUN-UP or PASTE: a set splice flag raises the kept level to URGENT (R64, R67). -/
def thresholdBeforePaste (s : State) (n : StandNo) (t : Threshold) : State :=
  match t with
  | .splice => (s.modStand n fun st => { st with level := some .urgent }).fileThreshold n t
  | .warn => s.fileThreshold n t
  | .critical => s.fileThreshold n t

/-- A threshold event is taken by the stand in its present state (R65, R66, R67). -/
def thresholdEventWith (force : StandNo → State → State) (s : State) (n : StandNo) (t : Threshold) : State :=
  match (s.stand n).state with
  | .running => s.thresholdInRunning force n t
  | .waiting => s.thresholdInWaiting force n t
  | .runUp | .paste => s.thresholdBeforePaste n t
  | .off | .idle | .backoff | .held | .locked | .cut | .settle => s.fileThreshold n t

/-- One flag of the test of R54: a clear flag whose diameter is at or above the reel's is set, and the stand takes the
event. -/
def testFlagWith (force : StandNo → State → State) (s : State) (n : StandNo) (diameter : Nat) (t : Threshold) : State :=
  if thresholdFlag (s.stand n) t = false ∧ diameter ≤ thresholdDiameter (s.working n) t then
    (s.modStand n fun st => withThresholdFlag st t).thresholdEventWith force n t
  else s

/-- The test of the threshold flags against the running reel's diameter, in the order warn, splice, critical (R54). A
stand without a running reel makes no test. -/
def testFlagsWith (force : StandNo → State → State) (s : State) (n : StandNo) : State :=
  match s.runningReel n with
  | none => s
  | some r =>
    ((s.testFlagWith force n r.diameter .warn).testFlagWith force n r.diameter .splice).testFlagWith force n
      r.diameter .critical

/-! ### The order queue -/

/-- A reel is refused by a stand's join test: its MISMATCH flag is set and REEL cause MISMATCH filed (R28, R35). -/
def refuseJoin (s : State) (n : StandNo) (h : Handle) : State :=
  (s.modReel h fun r => { r with mismatch := true }).fileReel n .mismatch
    { Detail.empty with running := (s.stand n).running, candidate := some h }

/-- A PREPARED reel is offered to its stand's queue, which holds fewer than 2 entries (R28); a stand in RUNNING whose
queue was empty reads its flags (R29). -/
def offerWith (force : StandNo → State → State) (s : State) (n : StandNo) (h : Handle) : State :=
  if (s.reel h).any (joinTest (s.working n)) then
    let joined :=
      (s.modReel h fun r => { r with mismatch := false }).modStand n fun st => { st with queue := st.queue ++ [h] }
    if (s.stand n).queue = [] ∧ (s.stand n).state = .running then joined.readFlagsWith force n else joined
  else s.refuseJoin n h

/-- What a stand does when the head of its queue has left, `left` being the entry that left last; the stand's request,
if it has one, stands at path `p` (R31). -/
def respondToLeave (s : State) (p : PathNo) (n : StandNo) (left : Handle) : State :=
  let st := s.stand n
  let lost : Detail := { Detail.empty with running := st.running, candidate := some left }
  if st.queue = [] then
    match st.state with
    | .waiting =>
      ((s.modStand n fun st => { st with state := .running, level := none }).withdrawRequest p n).fileReel n
        .candidateLost lost
    | .backoff => s.fileReel n .candidateLost lost
    | .off | .idle | .running | .held | .locked | .runUp | .paste | .cut | .settle => s
  else s

/-- A reel leaves its stand's queue by UNMOUNT REEL or RETIRE REEL, if it was in it (R30, R31). -/
def leaveByCommand (s : State) (n : StandNo) (h : Handle) : State :=
  if (s.stand n).queue.head? = some h then (s.leaveQueue n h).respondToLeave (s.pathOf n) n h
  else s.leaveQueue n h

/-- One entry of the re-check: a refused entry leaves the queue (R35). -/
def recheckEntry (s : State) (n : StandNo) (h : Handle) : State :=
  if (s.reel h).any (joinTest (s.working n)) then s else (s.leaveQueue n h).refuseJoin n h

/-- The re-check of a stand's queue under its new working profile, the request standing at path `p` (R35). When both
entries leave, the second is the last to leave (section 2.7). -/
def recheck (s : State) (p : PathNo) (n : StandNo) : State :=
  match (s.stand n).queue with
  | [] => s
  | head :: rest =>
    let checked := rest.foldl (fun s h => s.recheckEntry n h) (s.recheckEntry n head)
    let queue := (checked.stand n).queue
    if head ∈ queue then checked
    else checked.respondToLeave p n ((rest.filter fun h => h ∉ queue).getLast?.getD head)

/-! ### The application of a profile -/

/-- The validation of a stand's staged profile: the number of the field it fails on, none when it is valid (R152). -/
def validateProfile (s : State) (n : StandNo) : Option Nat :=
  let w := (s.profile n).staged
  match profileFieldNumbers.find? fun k => !profileFieldInRange k (profileField w k) with
  | some k => some k
  | none =>
    if ¬(w.criticalDiameter < w.spliceDiameter ∧ w.spliceDiameter < w.warnDiameter) then some 5
    else if w.gateDistance < (s.setting (profilePath w)).rejectLead then some 10
    else none

/-- A waiting stand moves its request from the old path's arbiter to its new path's (R131). -/
def moveRequest (s : State) (old : PathNo) (n : StandNo) : State :=
  if (s.stand n).state = .waiting then
    (s.withdrawRequest old n).raiseRequest (s.pathOf n) n (s.stand n).level
  else s

/-- The application of a valid profile to a stand (R154). -/
def applyProfileWith (force : StandNo → State → State) (s : State) (n : StandNo) : State :=
  let old := s.pathOf n
  let copied := s.modProfile n fun q => { q with working := q.staged }
  if copied.pathOf n = old then (copied.recheck old n).testFlagsWith force n
  else
    let moved := ((copied.clearMarks old n).clearMarks (copied.pathOf n) n).moveWatcher n
    ((moved.recheck old n).moveRequest old n).testFlagsWith force n

/-- The outcome of a PROFILE CHANGE with its failure field number (R156). -/
def setOutcome (s : State) (n : StandNo) (o : ProfileOutcome) (field : Nat) : State :=
  s.modProfile n fun q => { q with outcome := o, failureField := field }

/-- A deferred PROFILE CHANGE is validated and applied, or refused; a stand that is splicing again keeps its mark (R103,
R155). -/
def applyDeferredProfileWith (force : StandNo → State → State) (s : State) (n : StandNo) : State :=
  if (s.stand n).deferredProfile ∧ splicing (s.stand n).state = false then
    let cleared := s.modStand n fun st => { st with deferredProfile := false }
    match cleared.validateProfile n with
    | some field => cleared.setOutcome n .refused field
    | none => (cleared.setOutcome n .applied 0).applyProfileWith force n
  else s

/-! ### Abandonment and forced takes -/

/-- The abandonment of a splice before its paste, up to the entry into the next state (R92, steps 1 to 6). For
POSTPONED the permit has passed to the forcing stand (R126), so nothing is given back. -/
def abandon (s : State) (n : StandNo) (reason : Reason) : State :=
  match (s.stand n).context with
  | none => s
  | some c =>
    let released := (s.setDrive n false).modReel c.fresh fun r => { r with lock := false }
    let givenBack :=
      if c.permitHeld = true ∧ reason ≠ .postponed then released.freePermit (s.pathOf n) else released
    (givenBack.fileSplice n .aborted
        { running := (s.stand n).running, candidate := some c.fresh, spliceNumber := none, reason := some reason }).modStand
      n fun st => { st with runUpTimer := none, context := none }

/-- An abandonment after which the stand re-enters WAITING at its kept level (PATH-STOP, POSTPONED), with the deferred
PROFILE CHANGE after it (R93, R103). -/
def abandonToWaitingWith (force : StandNo → State → State) (s : State) (n : StandNo) (reason : Reason) : State :=
  ((s.abandon n reason).enterWaitingWith force n (s.stand n).level).applyDeferredProfileWith force n

/-- The forcing stand's part of a forced take: its splice is taken with the forced mark, and FORCED is filed (R125). -/
def takeByForce (s : State) (n : StandNo) (held : Bool) : State :=
  let st := s.stand n
  (s.takeSplice n true held).fileSplice n .forced
    { Detail.empty with running := st.running, candidate := st.queue.head? }

/-- A forced take (R125): the stand's entry leaves the requests; a FREE permit is taken, a FORCED one is left, and a
GRANTED holder is displaced, abandons its splice with reason POSTPONED and re-enters WAITING (R126, R111). `again` is
the forced take that the displaced stand may make. -/
def forcedTakeWith (again : StandNo → State → State) (n : StandNo) (s : State) : State :=
  let p := s.pathOf n
  let asked := s.setRequest p n none
  match (s.arbiter p).permit with
  | .free => (asked.setPermit p (.forced n)).takeByForce n true
  | .forced _ => asked.takeByForce n false
  | .granted m =>
    let taken := (asked.setPermit p (.forced n)).takeByForce n true
    if beforePaste (taken.stand m).state ∧ m ≠ n then taken.abandonToWaitingWith again m .postponed else taken

/-- Forced takes nested to a depth. -/
def forcedTakeTo : Nat → StandNo → State → State
  | 0, _, s => s
  | depth + 1, n, s => forcedTakeWith (forcedTakeTo depth) n s

/-- The forced take of a stand (R125). -/
def forcedTake (n : StandNo) (s : State) : State :=
  forcedTakeTo Config.forcedNesting n s

/-! ### The shared operations with the forced take in place -/

/-- A stand enters WAITING at a level (R118). -/
def enterWaiting (s : State) (n : StandNo) (l : Option Level) : State := s.enterWaitingWith forcedTake n l

/-- The test of the threshold flags (R54). -/
def testFlags (s : State) (n : StandNo) : State := s.testFlagsWith forcedTake n

/-- A PREPARED reel is offered to its stand's queue (R28, R29). -/
def offer (s : State) (n : StandNo) (h : Handle) : State := s.offerWith forcedTake n h

/-- The application of a valid profile (R154). -/
def applyProfile (s : State) (n : StandNo) : State := s.applyProfileWith forcedTake n

/-- A deferred PROFILE CHANGE (R155). -/
def applyDeferredProfile (s : State) (n : StandNo) : State := s.applyDeferredProfileWith forcedTake n

/-- A stand enters RUNNING with its running reel, followed at once by the reading of R71. -/
def enterRunning (s : State) (n : StandNo) : State :=
  (s.modStand n fun st => { st with state := .running, level := none }).readFlagsWith forcedTake n

/-! ### Entry to OFF, reset effects, deferred actions -/

/-- The request of a waiting stand is withdrawn from its path's arbiter (R118). -/
def withdrawIfWaiting (s : State) (n : StandNo) : State :=
  if (s.stand n).state = .waiting then s.withdrawRequest (s.pathOf n) n else s

/-- A stand outside RUN-UP and PASTE enters OFF (R98, R51). -/
def enterOff (s : State) (n : StandNo) : State :=
  let left := (s.withdrawIfWaiting n).stopWatcher n
  let stale :=
    match (s.stand n).running with
    | none => left
    | some h => left.modReel h fun r => { r with stale := true }
  stale.modStand n fun st => { st with state := .off, level := none, backoffTimer := none }

/-- A stand is disabled: a splice before its paste is abandoned with reason DISABLE, and the stand enters OFF (R97). -/
def disable (s : State) (n : StandNo) : State :=
  if beforePaste (s.stand n).state then (s.abandon n .disable).enterOff n else s.enterOff n

/-- The reset effects of a stand (R101). -/
def resetEffects (s : State) (n : StandNo) : State :=
  let cleared :=
    ((s.withdrawIfWaiting n).clearMarks (s.pathOf n) n).modStand n fun st =>
      { st with hold := false, lock := false, stall := false, backoffTimer := none, level := none }
  if (s.stand n).state = .off then cleared
  else if (s.stand n).running.isSome then cleared.enterRunning n
  else cleared.modStand n fun st => { st with state := .idle }

/-- A stand reset outside CUT and SETTLE: a splice before its paste is abandoned with reason RESET, and the reset effects
follow (R100). -/
def resetStand (s : State) (n : StandNo) : State :=
  if beforePaste (s.stand n).state then (s.abandon n .reset).resetEffects n else s.resetEffects n

/-- The deferred actions of a stand at the end of a splice: reset, disable, profile, in that order (R103; log 15 for a
reset that finds the stand splicing again). -/
def applyDeferred (s : State) (n : StandNo) : State :=
  let reset :=
    if (s.stand n).deferredReset then (s.modStand n fun st => { st with deferredReset := false }).resetStand n else s
  let disabled :=
    if (reset.stand n).deferredDisable then
      (reset.modStand n fun st => { st with deferredDisable := false }).disable n
    else reset
  disabled.applyDeferredProfile n

/-! ### Hold -/

/-- A stand outside a splice enters HELD: its request is withdrawn and its backoff timer stopped (R95). -/
def enterHeld (s : State) (n : StandNo) : State :=
  (s.withdrawIfWaiting n).modStand n fun st => { st with state := .held, level := none, backoffTimer := none }

/-- A stand's hold flag, clear before, is set, and the stand acts by its state (R95). -/
def setHold (s : State) (n : StandNo) : State :=
  let held := s.modStand n fun st => { st with hold := true }
  match (s.stand n).state with
  | .running | .waiting | .backoff => held.enterHeld n
  | .runUp | .paste => ((held.abandon n .hold).enterHeld n).applyDeferredProfile n
  | .cut | .settle | .idle | .held | .locked | .off => held

/-- A stand's hold flag, set before, is cleared, and the stand acts by its state (R96). -/
def clearHold (s : State) (n : StandNo) : State :=
  let free := s.modStand n fun st => { st with hold := false }
  if (s.stand n).state = .held then
    if (s.stand n).running.isSome then free.enterRunning n
    else free.modStand n fun st => { st with state := .idle }
  else free

/-! ### The arbiter's decision -/

/-- The stands whose working profile assigns them to a path, in number order. -/
def standsOf (s : State) (p : PathNo) : List StandNo :=
  (List.finRange 12).filter fun n => s.pathOf n = p

/-- The stand that an adoption gives the permit to, if any (R128). -/
def adoptable (s : State) (p : PathNo) : Option StandNo :=
  (s.standsOf p).find? fun n => splicesWithoutPermit (s.stand n)

/-- The permit is adopted by a stand splicing without it (R128). -/
def adopt (s : State) (p : PathNo) (n : StandNo) : State :=
  (s.setPermit p (.forced n)).modStand n fun st =>
    { st with context := st.context.map fun c => { c with permitHeld := true } }

/-- The marks of one level are cleared for every stand assigned to the path (R122, step 3). -/
def clearLevelMarks (s : State) (p : PathNo) (l : Level) : State :=
  s.modArbiter p fun b =>
    { b with
      marks := Vector.ofFn fun n => if s.pathOf n = p then withMark b.marks[n] l false else b.marks[n] }

/-- The permit is granted to a stand at the level of its request (R124, R123). -/
def grant (s : State) (p : PathNo) (n : StandNo) (l : Level) : State :=
  (s.modArbiter p fun b =>
    { b with
      permit := .granted n
      requests := b.requests.set n none
      marks := b.marks.set n (withMark b.marks[n] l true) }).takeSplice n false true

/-- The arbiter chooses among the stands waiting at the highest level and grants (R122, steps 2 and 3; R124). -/
def grantAmong (s : State) (p : PathNo) (l : Level) (waiting : List StandNo) : State :=
  match waiting.find? fun n => !markOf (s.arbiter p).marks[n] l with
  | some n => s.grant p n l
  | none =>
    match waiting with
    | [] => s
    | n :: _ => (s.clearLevelMarks p l).grant p n l

/-- A decision of a path's arbiter (R121). -/
def decision (s : State) (p : PathNo) : State :=
  if (s.arbiter p).permit = .free then
    match s.adoptable p with
    | some n => s.adopt p n
    | none =>
      if (s.arbiter p).pathClear then
        match highestWaiting (s.arbiter p) with
        | some (l, waiting) => s.grantAmong p l waiting
        | none => s
      else s
  else s

/-- The decision that a path's arbiter owes, if it owes one. -/
def decideIfDue (s : State) (p : PathNo) : State :=
  if (s.arbiter p).decisionDue then
    (s.modArbiter p fun b => { b with decisionDue := false }).decision p
  else s

/-- The decisions owed at the end of a step (R121, log 3). -/
def settleDecisions (s : State) : State :=
  (((s.decideIfDue 0).decideIfDue 1).decideIfDue 2).decideIfDue 3

end State

/-- A step of the field or of one of the controller's timers and targets: while READY is clear field inputs are ignored
and nothing is filed (R181); otherwise its event is taken, and the decisions it prompts follow it (R121). -/
def atEvent (event : State → State) (s : State) : State :=
  if s.phase = .ready then (event s).settleDecisions else s

end Sys2Proof.Machine
end

