-- ==== Sys2Proof/Machine/CommandRow.lean ====
section
/-! DEFINITION. The course that every command shares: its code write (R174, R176), its taking by the owning block (R175,
R180), and what its checks have in common. Also device reset (R181), which a code write can cause. -/

namespace Sys2Proof.Machine

/-- What an owning block gives back when it has taken a command: the state, and the answer for the port (R175). -/
structure Taken where
  state : State
  answer : Answer

/-- A command answered with a result and an empty reply, nothing changed (R177). -/
def refuse (s : State) (r : Result) : Taken := ⟨s, ⟨r, []⟩⟩

/-- A command answered DONE with a reply. -/
def done (s : State) (reply : List Byte) : Taken := ⟨s, ⟨.done, reply⟩⟩

/-- The check of a handle parameter (R1, R11): it names an occupied slot. -/
def withHandle (s : State) (code : Nat) (k : Handle → Reel → Taken) : Taken :=
  if inTable : code < 48 then
    match s.reel ⟨code, inTable⟩ with
    | some r => k ⟨code, inTable⟩ r
    | none => refuse s .badHandle
  else refuse s .badHandle

/-- The check of a stand parameter (R11): it lies in 0 to 11. -/
def withStand (s : State) (code : Nat) (k : StandNo → Taken) : Taken :=
  if inLine : code < 12 then k ⟨code, inLine⟩ else refuse s .badStand

/-- The check of a path parameter (R157, R179): it lies in 0 to 3. -/
def withPath (s : State) (code : Nat) (k : PathNo → Taken) : Taken :=
  if inLine : code < 4 then k ⟨code, inLine⟩ else refuse s .badValue

/-! ### Device reset -/

/-- A filter at device reset: its timer is stopped; the input goes on standing at its level (R184, log 19). -/
def Filter.atReset (f : Filter) : Filter := { f with timer := false }

/-- The inputs of a stand at device reset (R184, R185). -/
def Inputs.atReset (i : Inputs) : Inputs where
  loadA := i.loadA.atReset
  loadB := i.loadB.atReset
  loadC := i.loadC.atReset
  hold := i.hold.atReset
  splice := i.splice.atReset
  webBreak := i.webBreak.atReset
  markTakenA := false
  markTakenB := false
  markTakenC := false

/-- A device reset: every block takes its value after device reset, and the inputs stand as the field holds them
(R181). `phase` says whether initialisation runs at once or the RESET line holds it off. -/
def State.deviceReset (s : State) (phase : Phase) : State :=
  { State.reset with phase := phase, inputs := Vector.ofFn fun n => (s.standInputs n).atReset, pending := s.pending }

/-! ### The code write -/

/-- A command is taken at the port: the command register holds its code, BUSY is set, the result register is set to 00h,
OVERRUN is cleared, and the command is handed to its block with its parameters (R174). -/
def State.handOver (s : State) (c : Command) : State :=
  s.modPort fun q =>
    { q with
      command := c.code
      result := 0
      busy := true
      overrun := false
      handed := q.handed ++ [{ command := c, params := q.buffer, discarded := false }]
      answer := none }

/-- The completion of a command (R177). -/
def State.complete (s : State) (a : Answer) : State :=
  s.modPort fun q =>
    { q with
      command := 0
      result := resultCode a.result
      busy := false
      buffer := bufferOfReply a.reply
      index := 0
      answer := none }

/-- A write of register 00h (R172, R174, R176; log 13 for the code 00h while BUSY is set). -/
def State.writeCode (s : State) (code : Byte) : State :=
  if s.phase ≠ .ready then s
  else if s.port.busy then s.modPort fun q => { q with overrun := true }
  else if code = 0 then s
  else
    match Command.ofCode code with
    | none => (s.modPort fun q => { q with overrun := false }).complete ⟨.badCommand, []⟩
    | some .deviceReset => s.deviceReset .initialising
    | some c => s.handOver c

/-! ### The owning block -/

/-- The blocks that own commands (R175). A stand is named by the byte of its parameter. -/
inductive Block where
  | reelTable
  | standSequencer (stand : Nat)
  | profileStore
  | noticeUnit
  deriving DecidableEq, Repr

/-- The block that owns a command, which may depend on the stand it names (R175, log 2). -/
def owningBlock (c : Command) (ps : Buffer) : Block :=
  match c with
  | .enterReel | .findReel | .fetchReel | .amendReel | .mountReel | .prepareReel | .unmountReel | .retireReel => .reelTable
  | .reorder | .standEnable | .standDisable | .standReset | .threadReel | .hold | .release | .spliceSoon | .spliceNow
  | .output | .fetchStand => .standSequencer (byteAt ps 0)
  | .profileWrite | .profileRead | .profileChange | .pathSet | .fetchPath => .profileStore
  | .acceptNotice | .endNotice => .noticeUnit
  | .deviceReset => .profileStore

/-- Whether a handed command can be taken: no older one waits for the same block (R180). -/
def mayTake (handed : List Handed) (position : Nat) (h : Handed) : Bool :=
  (handed.take position).all fun older => owningBlock older.command older.params != owningBlock h.command h.params

/-- The owning block takes the command handed at a position, if it is this command and may be taken: its effects are
made, the answer goes to the port unless a PORT RESET has discarded it, and the decisions it prompts follow (R175, R180,
R121; log 4: the answer is made before the decisions). -/
def takeHanded (c : Command) (act : Buffer → State → Taken) (position : Nat) (s : State) : State :=
  match s.port.handed[position]? with
  | none => s
  | some h =>
    if s.phase = .ready ∧ h.command = c ∧ mayTake s.port.handed position h = true then
      let t := act h.params (s.modPort fun q => { q with handed := q.handed.eraseIdx position })
      if h.discarded then t.state.settleDecisions
      else t.state.settleDecisions.modPort fun q => { q with answer := some t.answer }
    else s

/-- The row of a command: its code write, its taking by the owning block, or both at once (log 1). -/
def commandRow (c : Command) (act : Buffer → State → Taken) (e : CmdEvent) (s : State) : State :=
  match e with
  | .write => s.writeCode c.code
  | .take n => takeHanded c act n s
  | .atOnce =>
    if s.phase = .ready ∧ s.port.busy = false then takeHanded c act s.port.handed.length (s.writeCode c.code)
    else s.writeCode c.code

end Sys2Proof.Machine
end

