-- ==== Sys2Proof/Machine/Images.lean ====
section
/-! DEFINITION. The images of a record, a stand, a path and a notice, byte by byte (Figures 44 to 50, R179). -/

namespace Sys2Proof.Machine

/-- A 32-bit count, or zeros when absent. -/
def countBytes (c : Option Count) : List Byte := leBytes 4 ((c.map BitVec.toNat).getD 0)

/-- A splice number, or zeros when absent. -/
def spliceNumberBytes (c : Option SpliceNo) : List Byte := leBytes 2 ((c.map BitVec.toNat).getD 0)

/-- The reel record image (Figure 44). -/
def reelImage (h : Handle) (r : Reel) : List Byte :=
  [byteOf h.val] ++ leBytes 4 r.tag ++ [byteOf r.grade, byteOf r.width, byteOf r.core] ++ leBytes 2 r.diameter ++
    [byteOf r.caliper] ++ leBytes 2 r.length ++ leBytes 2 (r.offset.getD 0) ++ [reelStateCode r.state] ++
    [standByte (r.place.map (·.stand)), armByte (r.place.map (·.arm))] ++
    [bitsByte [r.mismatch, r.lock, r.deadReckoning, r.stale, r.offset.isSome, r.spliceNumber.isSome]] ++
    spliceNumberBytes r.spliceNumber

/-- The stand image, part 0: stand status (Figure 45). -/
def standStatusImage (n : StandNo) (st : Stand) (w : Watcher) (q : StandProfile) : List Byte :=
  [byteOf n.val, standStateCode st.state, handleByte st.running] ++
    [byteOf st.queue.length, handleByte st.queue[0]?, handleByte st.queue[1]?] ++
    [bitsByte [st.warn, st.splice, st.critical, st.hold, st.lock, st.stall, st.webBroken]] ++
    [levelCode st.level, bitsByte [st.deferredReset, st.deferredDisable, st.deferredProfile], watchStateCode w.state] ++
    leBytes 2 w.pLast ++ [outcomeCode q.outcome, byteOf q.failureField]

/-- The stage target of a splice (Figure 46): the phase target in PASTE, the knife target in CUT, the settle target in
SETTLE. -/
def stageTarget (state : StandState) (c : SpliceContext) : Option Count :=
  match state with
  | .paste => c.phaseTarget
  | .cut => c.knifeTarget
  | .settle => c.settleTarget
  | .off | .idle | .running | .waiting | .backoff | .held | .locked | .runUp => none

/-- The stand image, part 1: splice context (Figure 46); without a context the mark is clear and every later byte 00h
(R179). -/
def spliceContextImage (n : StandNo) (st : Stand) : List Byte :=
  match st.context with
  | none => [byteOf n.val, 0]
  | some c =>
    [byteOf n.val] ++
      [bitsByte [true, c.forced, c.permitHeld, c.watchArmed, c.breakInCut, c.firePoint.isSome, c.spliceNumber.isSome]] ++
      [handleByte (some c.fresh), armByte c.freshArm, handleByte c.former] ++ leBytes 2 c.circumference ++
      [byteOf c.matchCount] ++ leBytes 2 (c.firePoint.getD 0) ++
      countBytes (if c.watchArmed then c.watchDeadline else none) ++ countBytes (stageTarget st.state c) ++
      spliceNumberBytes c.spliceNumber ++ [byteOf c.settleMarks]

/-- The state of a permit (Figure 47). -/
def permitCode : Permit → Byte
  | .free => 0
  | .granted _ => 1
  | .forced _ => 2

/-- The holder of a permit (Figure 47). -/
def permitHolder : Permit → Option StandNo
  | .free => none
  | .granted n => some n
  | .forced n => some n

/-- The bits of a number over the stands, bit n for stand n. -/
def standBits (f : StandNo → Bool) : Nat :=
  (List.finRange 12).foldl (fun acc n => if f n then acc + 2 ^ n.val else acc) 0

/-- The request levels of the stands, two bits each, from stand 0 (Figure 47). -/
def levelBits (f : StandNo → Option Level) : Nat :=
  (List.finRange 12).foldl (fun acc n => acc + levelRank (f n) * 4 ^ n.val) 0

/-- The path image, part 0: path status (Figure 47). A stand not assigned to the path shows level 0 and no marks
(R179). -/
def pathStatusImage (s : State) (p : PathNo) : List Byte :=
  let b := s.arbiter p
  let t := s.transit p
  let marked := fun (f : Marks → Bool) => standBits fun n => s.pathOf n = p && f b.marks[n]
  [byteOf p.val] ++ countBytes (some (s.web p).counter) ++
    [bitsByte [(s.web p).moving, t.reject, b.pathClear]] ++
    [permitCode b.permit, standByte (permitHolder b.permit)] ++
    leBytes 2 t.spliceCounter.toNat ++ [byteOf t.queue.length] ++
    leBytes 3 (levelBits fun n => if s.pathOf n = p then b.requests[n] else none) ++
    leBytes 2 (marked (·.early)) ++ leBytes 2 (marked (·.normal)) ++ leBytes 2 (marked (·.urgent))

/-- The path image, parts 1 to 4: the transit record at a position from 1 (Figure 48); beyond the records, the present
mark is clear and the rest 00h (R179). That path and position still stand in bytes 0 and 1 there is the model's choice
(log 28). -/
def transitRecordImage (p : PathNo) (position : Nat) (r : Option TransitRecord) : List Byte :=
  match r with
  | none => [byteOf p.val, byteOf position, 0]
  | some r =>
    [byteOf p.val, byteOf position] ++
      [bitsByte [r.rejecting, r.guardReached, r.forced, r.overlap, false, false, false, true]] ++
      spliceNumberBytes (some r.spliceNumber) ++ [byteOf r.stand.val] ++
      countBytes (some r.pasteCount) ++ countBytes (some r.rejectStart) ++ countBytes (some r.rejectEnd) ++
      countBytes (some r.guardCount) ++ [byteOf r.merged]

/-- The four path settings in their layout (R178; Figure 49 from position 1). -/
def settingsBytes (g : PathSettings) : List Byte :=
  leBytes 3 g.guardLength ++ leBytes 2 g.rejectLead ++ leBytes 3 g.rejectLength ++ leBytes 2 g.stopTime

/-- The path image, part 5: path settings (Figure 49). -/
def settingsImage (p : PathNo) (g : PathSettings) : List Byte :=
  [byteOf p.val] ++ settingsBytes g

/-- The notice image (Figure 50). -/
def noticeImage (o : OpenNotice) : List Byte :=
  let d := o.notice.detail
  [byteOf o.source.val, classCode o.cls, o.notice.causes] ++
    [bitsByte [d.running.isSome, d.candidate.isSome, d.spliceNumber.isSome, d.reason.isSome]] ++
    [handleByte d.running, handleByte d.candidate] ++ spliceNumberBytes d.spliceNumber ++ [reasonByte d.reason]

end Sys2Proof.Machine
end

