-- ==== Sys2Proof/Machine/ReelCommands.lean ====
section
/-! DEFINITION. The commands of the Reel Table (sections 1.5 and 2.3; R11 to R21). -/

namespace Sys2Proof.Machine

/-! ### ENTER REEL -/

/-- The record that ENTER REEL creates from its parameters, if every value passes R3 and R178. -/
def enteredReel (ps : Buffer) : Option Reel :=
  let tag := valueAt ps 0 4
  let grade := byteAt ps 4
  let width := byteAt ps 5
  let core := byteAt ps 6
  let diameter := valueAt ps 7 2
  let caliper := byteAt ps 9
  match optionalValue (byteAt ps 10) (valueAt ps 11 2) offsetInRange with
  | none => none
  | some offset =>
    if tagInRange tag && gradeInRange grade && widthInRange width && coreInRange core && diameterInRange diameter &&
        caliperInRange caliper && decide (core ≤ diameter) then
      some
        { tag := tag
          grade := grade
          width := width
          core := core
          diameter := diameter
          caliper := caliper
          length := lengthOf diameter core caliper
          offset := offset
          state := .staged
          place := none
          mismatch := false
          lock := false
          deadReckoning := false
          stale := false
          spliceNumber := none }
    else none

/-- ENTER REEL taken by the Reel Table (R12). -/
def enterReel (ps : Buffer) (s : State) : Taken :=
  match enteredReel ps with
  | none => refuse s .badValue
  | some r =>
    if (s.handleOfTag r.tag).isSome then refuse s .duplicateTag
    else
      match s.lowestFree with
      | none => refuse s .tableFull
      | some h => done (s.setReel h (some r)) [byteOf h.val]

/-- ENTER_REEL (R12, R174, R175). -/
def execEnterReel (e : CmdEvent) (s : State) : Host.Outcome State Fault Refusal :=
  .next (commandRow .enterReel enterReel e s)

/-! ### FIND REEL, FETCH REEL -/

/-- FIND REEL taken by the Reel Table (R13). -/
def findReel (ps : Buffer) (s : State) : Taken :=
  let tag := valueAt ps 0 4
  if tagInRange tag then
    match s.handleOfTag tag with
    | some h => done s [byteOf h.val]
    | none => refuse s .notFound
  else refuse s .badValue

/-- FIND_REEL (R13, R174, R175). -/
def execFindReel (e : CmdEvent) (s : State) : Host.Outcome State Fault Refusal :=
  .next (commandRow .findReel findReel e s)

/-- FETCH REEL taken by the Reel Table (R14). -/
def fetchReel (ps : Buffer) (s : State) : Taken :=
  withHandle s (byteAt ps 0) fun h r => done s (reelImage h r)

/-- FETCH_REEL (R14, R174, R175). -/
def execFetchReel (e : CmdEvent) (s : State) : Host.Outcome State Fault Refusal :=
  .next (commandRow .fetchReel fetchReel e s)

/-! ### AMEND REEL -/

/-- The parameters of AMEND REEL after the handle (R178): the field mask and a value for each item. -/
structure Amendment where
  grade : Option Nat
  width : Option Nat
  core : Option Nat
  diameter : Option Nat
  caliper : Option Nat
  /-- the outer `some` is a named pattern offset, the inner `none` makes it absent (R5) -/
  offset : Option (Option Nat)

/-- An item that bit `bit` of the mask may name: not named, or named with a value that must lie in range. The outer
`none` is a value out of range. -/
def amendedItem (mask bit value : Nat) (inRange : Nat → Bool) : Option (Option Nat) :=
  if mask.testBit bit then (if inRange value then some (some value) else none) else some none

/-- The pattern offset of an amendment: not named, or named with its presence byte and value. -/
def amendedOffset (mask presence value : Nat) : Option (Option (Option Nat)) :=
  if mask.testBit 5 then (optionalValue presence value offsetInRange).map some else some none

/-- An amendment read from the parameters, none where the mask names bit 6 or 7 or a named value fails (R178, R3). -/
def amendmentOf (ps : Buffer) : Option Amendment :=
  let mask := byteAt ps 1
  if 64 ≤ mask then none
  else
    match amendedItem mask 0 (byteAt ps 2) gradeInRange, amendedItem mask 1 (byteAt ps 3) widthInRange,
      amendedItem mask 2 (byteAt ps 4) coreInRange, amendedItem mask 3 (valueAt ps 5 2) diameterInRange,
      amendedItem mask 4 (byteAt ps 7) caliperInRange, amendedOffset mask (byteAt ps 8) (valueAt ps 9 2) with
    | some grade, some width, some core, some diameter, some caliper, some offset =>
      some ⟨grade, width, core, diameter, caliper, offset⟩
    | _, _, _, _, _, _ => none

/-- A record with the named items written (R16), before the length is computed. -/
def amendFields (m : Amendment) (r : Reel) : Reel :=
  { r with
    grade := m.grade.getD r.grade
    width := m.width.getD r.width
    core := m.core.getD r.core
    diameter := m.diameter.getD r.diameter
    caliper := m.caliper.getD r.caliper
    offset := m.offset.getD r.offset }

/-- Whether an amendment names an item that the length depends on (R4, R16). -/
def namesLengthItem (m : Amendment) : Bool :=
  m.core.isSome || m.diameter.isSome || m.caliper.isSome

/-- The record after an amendment, its length computed once where an item it depends on was named (R16). -/
def amendedReel (m : Amendment) (r : Reel) : Reel :=
  let w := amendFields m r
  if namesLengthItem m then { w with length := lengthOf w.diameter w.core w.caliper } else w

/-- Whether an amendment names an item other than caliper and pattern offset. -/
def namesOtherThanCaliperAndOffset (m : Amendment) : Bool :=
  m.grade.isSome || m.width.isSome || m.core.isSome || m.diameter.isSome

/-- Whether an amendment names no item. -/
def namesNothing (m : Amendment) : Bool :=
  !(namesOtherThanCaliperAndOffset m || m.caliper.isSome || m.offset.isSome)

/-- The test of the mask against the record's state (R15, Figure 8): none where the change is allowed. -/
def amendRefusal (m : Amendment) (r : Reel) : Option Result :=
  match r.state with
  | .staged | .mounted => none
  | .prepared =>
    if namesOtherThanCaliperAndOffset m then some .wrongState
    else if r.lock && !namesNothing m then some .inSplice
    else none
  | .running => if namesOtherThanCaliperAndOffset m || m.offset.isSome then some .wrongState else none
  | .butt => if namesNothing m then none else some .wrongState

/-- AMEND REEL taken by the Reel Table (R15, R16). -/
def amendReel (ps : Buffer) (s : State) : Taken :=
  withHandle s (byteAt ps 0) fun h r =>
    match amendmentOf ps with
    | none => refuse s .badValue
    | some m =>
      if (m.core.isSome || m.diameter.isSome) && decide ((amendFields m r).diameter < (amendFields m r).core) then
        refuse s .badValue
      else
        match amendRefusal m r with
        | some result => refuse s result
        | none => done (s.setReel h (some (amendedReel m r))) (reelImage h (amendedReel m r))

/-- AMEND_REEL (R15, R16, R174, R175). -/
def execAmendReel (e : CmdEvent) (s : State) : Host.Outcome State Fault Refusal :=
  .next (commandRow .amendReel amendReel e s)

/-! ### MOUNT REEL, PREPARE REEL -/

/-- MOUNT REEL taken by the Reel Table (R17). -/
def mountReel (ps : Buffer) (s : State) : Taken :=
  withHandle s (byteAt ps 0) fun h r =>
    withStand s (byteAt ps 1) fun n =>
      match armOfCode (byteAt ps 2) with
      | none => refuse s .badValue
      | some arm =>
        if r.state ≠ .staged then refuse s .wrongState
        else if (s.armHolds n arm).isSome then refuse s .armOccupied
        else
          done (s.setReel h (some { r with state := .mounted, place := some ⟨n, arm⟩ }))
            [byteOf h.val, reelStateCode .mounted]

/-- MOUNT_REEL (R17, R174, R175). -/
def execMountReel (e : CmdEvent) (s : State) : Host.Outcome State Fault Refusal :=
  .next (commandRow .mountReel mountReel e s)

/-- The position of a handle in a queue: 1 at the head, 2 second, 0 when it is not in it (R18). -/
def queuePosition (queue : List Handle) (h : Handle) : Nat :=
  if queue[0]? = some h then 1 else if queue[1]? = some h then 2 else 0

/-- A reel becomes PREPARED and is offered to its stand's queue (R18, R22). -/
def State.prepareAndOffer (s : State) (n : StandNo) (h : Handle) : State :=
  (s.modReel h fun r => { r with state := .prepared }).offer n h

/-- PREPARE REEL taken by the Reel Table (R18, R19). A record with a place is on one stand, whose queue it is offered
to. -/
def prepareReel (ps : Buffer) (s : State) : Taken :=
  withHandle s (byteAt ps 0) fun h r =>
    match r.place with
    | none => refuse s .wrongState
    | some place =>
      let queue := (s.stand place.stand).queue
      if r.state = .mounted ∨ (r.state = .prepared ∧ h ∉ queue) then
        if queue.length < Config.queueCapacity then
          let offered := s.prepareAndOffer place.stand h
          done offered
            [byteOf h.val, reelStateCode .prepared, byteOf (queuePosition (offered.stand place.stand).queue h)]
        else refuse s .queueFull
      else refuse s .wrongState

/-- PREPARE_REEL (R18, R19, R174, R175). -/
def execPrepareReel (e : CmdEvent) (s : State) : Host.Outcome State Fault Refusal :=
  .next (commandRow .prepareReel prepareReel e s)

/-! ### UNMOUNT REEL, RETIRE REEL -/

/-- A placed record leaves its stand's queue, if it was in it, once the table holds its new content (R20, R21). -/
def State.leaveItsQueue (s : State) (h : Handle) (place : Option Place) : State :=
  match place with
  | none => s
  | some place => s.leaveByCommand place.stand h

/-- UNMOUNT REEL taken by the Reel Table (R20). -/
def unmountReel (ps : Buffer) (s : State) : Taken :=
  withHandle s (byteAt ps 0) fun h r =>
    match r.state with
    | .staged => refuse s .wrongState
    | .running => refuse s .wrongState
    | .butt => done (s.setReel h none) [byteOf h.val, reelStateByte none]
    | .mounted =>
      done (s.setReel h (some { r with state := .staged, place := none })) [byteOf h.val, reelStateCode .staged]
    | .prepared =>
      if r.lock then refuse s .inSplice
      else
        done ((s.setReel h (some { r with state := .staged, place := none })).leaveItsQueue h r.place)
          [byteOf h.val, reelStateCode .staged]

/-- UNMOUNT_REEL (R20, R174, R175). -/
def execUnmountReel (e : CmdEvent) (s : State) : Host.Outcome State Fault Refusal :=
  .next (commandRow .unmountReel unmountReel e s)

/-- RETIRE REEL taken by the Reel Table (R21). -/
def retireReel (ps : Buffer) (s : State) : Taken :=
  withHandle s (byteAt ps 0) fun h r =>
    match r.state with
    | .running => refuse s .wrongState
    | .staged => done (s.setReel h none) (byteOf h.val :: leBytes 4 r.tag)
    | .mounted => done (s.setReel h none) (byteOf h.val :: leBytes 4 r.tag)
    | .butt => done (s.setReel h none) (byteOf h.val :: leBytes 4 r.tag)
    | .prepared =>
      if r.lock then refuse s .inSplice
      else done ((s.setReel h none).leaveItsQueue h r.place) (byteOf h.val :: leBytes 4 r.tag)

/-- RETIRE_REEL (R21, R174, R175). -/
def execRetireReel (e : CmdEvent) (s : State) : Host.Outcome State Fault Refusal :=
  .next (commandRow .retireReel retireReel e s)

end Sys2Proof.Machine
end

