-- ==== Sys2Proof/Machine/TransitOps.lean ====
section
/-! DEFINITION. The Transit Tracker's part of a paste: entering a record (R136 to R138) or merging into the youngest
(R139, R140), the REJECT output (R143) and the report to the Permit Arbiter (R120). -/

namespace Sys2Proof.Machine

/-- The three counts of a splice pasted at a count, from the stand's gate distance and the path settings (Figure 31). -/
structure TransitCounts where
  rejectStart : Count
  rejectEnd : Count
  guardCount : Count
  deriving DecidableEq, Repr

/-- The formulas of Figure 31, modulo 2^32. -/
def transitCounts (paste : Count) (gate : Nat) (g : PathSettings) : TransitCounts where
  rejectStart := paste + BitVec.ofNat 32 gate - BitVec.ofNat 32 g.rejectLead
  rejectEnd := paste + BitVec.ofNat 32 gate + BitVec.ofNat 32 g.rejectLength
  guardCount := paste + BitVec.ofNat 32 g.guardLength

/-- The record that a paste enters (R136, R137): its state and guard at the path count `count`. -/
def newRecord (number : SpliceNo) (n : StandNo) (paste count : Count) (k : TransitCounts) (forced overlap : Bool) :
    TransitRecord where
  spliceNumber := number
  stand := n
  pasteCount := paste
  rejectStart := k.rejectStart
  rejectEnd := k.rejectEnd
  guardCount := k.guardCount
  rejecting := reached count k.rejectStart
  guardReached := reached count k.guardCount
  forced := forced
  overlap := overlap
  merged := 0

/-- A record after a splice has been merged into it (R139), its state and guard set again at the path count `count`
(R140). -/
def mergedRecord (r : TransitRecord) (count : Count) (k : TransitCounts) (forced : Bool) : TransitRecord :=
  let start := earlierFrom r.pasteCount r.rejectStart k.rejectStart
  let guard := laterFrom r.pasteCount r.guardCount k.guardCount
  { r with
    rejectStart := start
    rejectEnd := laterFrom r.pasteCount r.rejectEnd k.rejectEnd
    guardCount := guard
    rejecting := reached count start
    guardReached := reached count guard
    forced := r.forced || forced
    merged := min (r.merged + 1) 255 }

/-- A queue with its youngest record changed. -/
def changeYoungest (f : TransitRecord → TransitRecord) : List TransitRecord → List TransitRecord
  | [] => []
  | [r] => [f r]
  | r :: next :: rest => r :: changeYoungest f (next :: rest)

/-- Whether a transit queue leaves its path clear: fewer than 4 records, each with its guard reached (R120). -/
def queueClear (queue : List TransitRecord) : Bool :=
  decide (queue.length < Config.transitCapacity) && queue.all (·.guardReached)

namespace State

/-- The REJECT output of a path is set: asserted when a record is REJECTING (R143). -/
def setReject (s : State) (p : PathNo) : State :=
  s.modTransit p fun t => { t with reject := t.queue.any (·.rejecting) }

/-- The Transit Tracker reports to the path's arbiter, which recomputes the path-clear state (R120). -/
def reportTransit (s : State) (p : PathNo) : State :=
  s.modArbiter p fun b => { b with pathClear := queueClear (s.transit p).queue }

/-- A record's guard reached or its removal is reported: a decision event (R120, R121). -/
def reportDecision (s : State) (p : PathNo) : State :=
  (s.reportTransit p).promptDecision p

/-- The counts of a splice that a stand pastes at a count on its path (Figure 31, R136). -/
def countsOfPaste (s : State) (n : StandNo) (paste : Count) : TransitCounts :=
  transitCounts paste (s.working n).gateDistance (s.setting (s.pathOf n))

/-- A new record joins the tail of the path's queue; OVERLAP is filed when a record before it has not reached its
guard (R136, R138). -/
def enterTransit (s : State) (n : StandNo) (paste : Count) (forced : Bool) : State :=
  let p := s.pathOf n
  let t := s.transit p
  let overlap := t.queue.any fun r => !r.guardReached
  let entered := s.modTransit p fun t =>
    { t with
      queue := t.queue ++
        [newRecord t.spliceCounter n paste (s.countOf n) (s.countsOfPaste n paste) forced overlap] }
  if overlap then
    entered.fileLine (pathSource p) .overlap { Detail.empty with spliceNumber := some t.spliceCounter }
  else entered

/-- A splice is merged into the youngest record of the path's full queue, and MERGED is filed (R139, R140). -/
def mergeTransit (s : State) (n : StandNo) (paste : Count) (forced : Bool) : State :=
  let p := s.pathOf n
  let t := s.transit p
  (s.modTransit p fun t =>
      { t with
        queue := changeYoungest (fun r => mergedRecord r (s.countOf n) (s.countsOfPaste n paste) forced) t.queue }).fileLine
    (pathSource p) .merged { Detail.empty with spliceNumber := some t.spliceCounter }

/-- The Transit Tracker's part of a paste (R135, R136): entry or merge, the splice counter's advance, the REJECT output
and the report to the arbiter. -/
def pasteTransit (s : State) (n : StandNo) (paste : Count) (forced : Bool) : State :=
  let p := s.pathOf n
  let tracked :=
    if (s.transit p).queue.length < Config.transitCapacity then s.enterTransit n paste forced
    else s.mergeTransit n paste forced
  ((tracked.modTransit p fun t => { t with spliceCounter := t.spliceCounter + 1 }).setReject p).reportTransit p

end State

end Sys2Proof.Machine
end

