-- ==== Sys2Proof/Machine/WebEvents.lean ====
section
/-! DEFINITION. Marks of the arms and what the run-mark watchers make of them: samples, mark loss and dead reckoning (R43 to
R49, R83, R185). -/

namespace Sys2Proof.Machine

/-! ### Marks -/

/-- Whether a mark of an arm has been taken since initialisation (R185). -/
def markTaken (i : Inputs) : Arm → Bool
  | .a => i.markTakenA
  | .b => i.markTakenB
  | .c => i.markTakenC

/-- The inputs of a stand with a mark of an arm taken. -/
def withMarkTaken (i : Inputs) : Arm → Inputs
  | .a => { i with markTakenA := true }
  | .b => { i with markTakenB := true }
  | .c => { i with markTakenC := true }

namespace State

/-- An edge of an ARM MARK input: it is a mark when it comes 1 ms or more after the last of its input, and the first
after initialisation is one in any case (R185). -/
def markEdge (s : State) (n : StandNo) (arm : Arm) (since : Nat) (mark : State → State) : State :=
  if markTaken (s.standInputs n) arm = true ∧ since < Config.markSpacingMicros then s
  else mark (s.modInputs n fun i => withMarkTaken i arm)

/-- The watcher's interval begins at a path count, with P_last given (R45, R49). -/
def beginInterval (s : State) (n : StandNo) (count : Count) (pLast : Nat) : State :=
  s.modWatcher n fun w =>
    { w with
      state := .timing
      reference := count
      pLast := pLast
      deadline := some (advance count (2 * pLast))
      reckoningCount := none }

/-- The record of a stand's running reel is changed. -/
def modRunning (s : State) (n : StandNo) (f : Reel → Reel) : State :=
  match (s.stand n).running with
  | none => s
  | some h => s.modReel h f

/-- Whether a record accepts a diameter sample: at least the core and not above the recorded diameter (R45). -/
def acceptsSample (r : Reel) (sample : Nat) : Bool :=
  decide (r.core ≤ sample) && decide (sample ≤ r.diameter)

/-- A record with an accepted sample (R45, R4). -/
def sampled (r : Reel) (sample : Nat) : Reel :=
  { r with diameter := sample, length := lengthOf sample r.core r.caliper }

/-- A run mark closes the open interval of `pulses` pulses at a path count (R45). -/
def closeInterval (s : State) (n : StandNo) (count : Count) (pulses : Nat) : State :=
  match s.runningReel n with
  | none => s
  | some r =>
    if acceptsSample r (diameterOf pulses) then
      ((s.beginInterval n count pulses).modRunning n fun r => sampled r (diameterOf pulses)).testFlags n
    else s.beginInterval n count (s.watcher n).pLast

/-- A run mark ends dead reckoning (R49). -/
def restoreMeasurement (s : State) (n : StandNo) (count : Count) : State :=
  match s.runningReel n with
  | none => s
  | some r =>
    ((s.modRunning n fun r => { r with deadReckoning := false }).beginInterval n count
        (circumferenceOf r.diameter)).fileLine (standSource n) .markRestored
      { Detail.empty with running := (s.stand n).running }

/-- A run mark in SETTLE adds to the settle marks, up to 2 (R83). -/
def countSettleMark (s : State) (n : StandNo) : State :=
  if (s.stand n).state = .settle then
    s.modStand n fun st =>
      { st with context := st.context.map fun c => { c with settleMarks := min (c.settleMarks + 1) 2 } }
  else s

/-- A mark of the followed arm is a run mark, taken by the watcher in its state; a mark of another arm is not taken by
it, and an IDLE watcher takes none (R43, R45, R49). -/
def takeRunMark (s : State) (n : StandNo) (arm : Arm) : State :=
  let w := s.watcher n
  if w.arm = some arm ∧ w.state ≠ .idle then
    let marked := s.countSettleMark n
    let count := s.countOf n
    match w.state with
    | .idle => s
    | .starting => marked.beginInterval n count w.pLast
    | .timing => marked.closeInterval n count (count - w.reference).toNat
    | .reckoning => marked.restoreMeasurement n count
  else s

/-- The watcher's deadline is reached: the expected run mark is lost (R47). -/
def loseRunMark (s : State) (n : StandNo) (deadline : Count) : State :=
  ((s.modRunning n fun r => { r with deadReckoning := true }).modWatcher n fun w =>
      { w with state := .reckoning, deadline := none, reckoningCount := some deadline }).fileLine (standSource n)
    .markLost { Detail.empty with running := (s.stand n).running }

/-- A record after one step of dead reckoning (R48). -/
def reckoned (r : Reel) : Reel :=
  { r with
    length := r.length - 1
    diameter := min r.diameter (reckonedDiameter r.core r.caliper (r.length - 1)) }

/-- A reckoning step at the reckoning count + 1,000, which becomes the reckoning count (R48). -/
def takeReckoningStep (s : State) (n : StandNo) (count : Count) : State :=
  ((s.modWatcher n fun w => { w with reckoningCount := some count }).modRunning n reckoned).testFlags n

end State

/-- RUN_MARK (R43, R45, R49, R83, R185). -/
def execRunMark (n : StandNo) (arm : Arm) (since : Nat) (s : State) : Host.Outcome State Fault Refusal :=
  .next (atEvent (fun s => s.markEdge n arm since fun s => s.takeRunMark n arm) s)

end Sys2Proof.Machine
end

