-- ==== Sys2Proof/Machine/SpliceEvents.lean ====
section
/-! DEFINITION. The steps of a stand's splice: fresh-reel marks, paste, cut and the end of SETTLE, and the expiry of its
timers (R63, R75 to R85, R105 to R109, R113, R186). -/

namespace Sys2Proof.Machine

namespace State

/-! ### The paste -/

/-- A stand makes the paste at a path count (R80). -/
def makePaste (s : State) (n : StandNo) (c : SpliceContext) (paste : Count) : State :=
  let p := s.pathOf n
  let number := (s.transit p).spliceCounter
  let tracked := (s.startPulse n .paste).pasteTransit n paste c.forced
  let released := if c.permitHeld then tracked.freePermit p else tracked
  released.modStand n fun st =>
    { st with
      state := .cut
      level := none
      stall := false
      runUpTimer := none
      context := some
        { c with
          permitHeld := false
          watchArmed := false
          watchDeadline := none
          phaseTarget := none
          pasteCount := some paste
          spliceNumber := some number
          knifeTarget := some (advance paste (s.working n).knifeDistance) } }

/-! ### The cut -/

/-- The old reel becomes BUTT and the fresh reel the running reel (R82, steps 2 and 3). -/
def changeReels (s : State) (n : StandNo) (c : SpliceContext) : State :=
  ((((s.endRunningReel n).becomeRunning c.fresh c.spliceNumber).leaveQueue n c.fresh).modStand n fun st =>
    { st with running := some c.fresh }).startWatcher n

/-- A stand enters SETTLE at the cut, with BRAKE asserted and its timer started (R82, steps 5 and 6; R63). -/
def enterSettle (s : State) (n : StandNo) (c : SpliceContext) : State :=
  let w := s.working n
  (s.modOutputs n fun o => { o with brake := true }).modStand n fun st =>
    { st with
      state := .settle
      brakeTimer := some w.brakeTime
      context := some
        { c with
          knifeTarget := none
          settleTarget := some (advance (s.countOf n) w.settleLength)
          settleMarks := 0 } }

/-- The detail of COMPLETE and FAILED (R84, R85): the former running reel, the new one, and the splice number. -/
def outcomeDetail (c : SpliceContext) (reason : Option Reason) : Detail where
  running := c.former
  candidate := some c.fresh
  spliceNumber := c.spliceNumber
  reason := reason

/-- A splice ends FAILED: DRIVE is released, the hold flag set, the context discarded, the stand enters HELD and files
FAILED (R84, R85). -/
def failSplice (s : State) (n : StandNo) (c : SpliceContext) (reason : Reason) : State :=
  ((s.setDrive n false).modStand n fun st => { st with state := .held, hold := true, context := none }).fileSplice n
    .failed (outcomeDetail c (some reason))

/-- LINE cause WEB-BREAK is filed with the stand's running reel, if any, as running handle (R85, R90, R112, R114). -/
def fileWebBreak (s : State) (n : StandNo) : State :=
  s.fileLine (standSource n) .webBreak { Detail.empty with running := (s.stand n).running }

/-- A web break in SETTLE fails the splice at once (R85), with the deferred actions after it (R103). -/
def breakInSettle (s : State) (n : StandNo) (c : SpliceContext) : State :=
  (((s.failSplice n c .webBreak).modStand n fun st => { st with webBroken := true }).fileWebBreak n).applyDeferred n

/-- A stand makes the cut (R82), and a break recorded in CUT is then taken as a break in SETTLE (R113). The flag test
comes after the entry to SETTLE, in which its events are taken (R82, step 4). -/
def makeCut (s : State) (n : StandNo) (c : SpliceContext) : State :=
  let settled := ((((s.startPulse n .knife).changeReels n c).enterSettle n c).testFlags n)
  if c.breakInCut then settled.breakInSettle n c else settled

/-! ### The paste with what follows at once -/

/-- The cut is taken at once where its target is reached as the paste sets it (R40). -/
def cutIfReached (s : State) (n : StandNo) : State :=
  match (s.stand n).context with
  | none => s
  | some c =>
    if (s.stand n).state = .cut ∧ (c.knifeTarget.any fun t => reached (s.countOf n) t) = true then s.makeCut n c else s

/-- The paste is taken at a path count (R80), and the cut with it where its target is reached as it is set (R40). -/
def takePaste (s : State) (n : StandNo) (c : SpliceContext) (paste : Count) : State :=
  (s.makePaste n c paste).cutIfReached n

/-- The paste is taken at once where its target is reached as it is set, which it is with a fire point of 0 (R78, R40). -/
def pasteIfReached (s : State) (n : StandNo) : State :=
  match (s.stand n).context with
  | none => s
  | some c =>
    match c.phaseTarget with
    | none => s
    | some t => if reached (s.countOf n) t then s.takePaste n c t else s

/-! ### Fresh-reel marks -/

/-- The fire point of a splice from the fresh record's pattern offset or the profile's default (R77, R5). -/
def firePoint (s : State) (n : StandNo) (c : SpliceContext) : Nat :=
  let w := s.working n
  firePointOf c.circumference (((s.reel c.fresh).bind (·.offset)).getD w.defaultOffset) w.pasteLead

/-- The context after a fresh-reel mark in RUN-UP at a path count (R75, R76). The first mark gives no test. -/
def contextAfterMark (c : SpliceContext) (count : Count) (perMille : Nat) : SpliceContext :=
  match c.lastMark with
  | none => { c with lastMark := some count, matchCount := 0 }
  | some last =>
    let inTol := inTolerance (count - last).toNat c.circumference perMille
    let armed := c.watchArmed || inTol
    { c with
      lastMark := some count
      matchCount := if inTol then c.matchCount + 1 else 0
      watchArmed := armed
      watchDeadline := if armed then some (advance count (2 * c.circumference)) else none }

/-- Whether a mark completes the speed match: it brings the match count to the match revolutions (R78). -/
def matchComplete (before after : SpliceContext) (revolutions : Nat) : Bool :=
  before.lastMark.isSome && after.matchCount == revolutions

/-- The context with the phase target set from a mark at a path count (R78, R79). -/
def withPhaseTarget (c : SpliceContext) (count : Count) (fire : Nat) : SpliceContext :=
  { c with firePoint := some fire, phaseTarget := some (advance count fire) }

/-- A fresh-reel mark in RUN-UP (R75, R76, R78). -/
def markInRunUp (s : State) (n : StandNo) (c : SpliceContext) : State :=
  let count := s.countOf n
  let w := s.working n
  let after := contextAfterMark c count w.speedTolerance
  if matchComplete c after w.matchRevolutions then
    (s.modStand n fun st =>
      { st with
        state := .paste
        stall := false
        context := some (withPhaseTarget after count (s.firePoint n c)) }).pasteIfReached n
  else s.modStand n fun st => { st with stall := false, context := some after }

/-- A fresh-reel mark in PASTE reloads the phase target and the watch deadline (R79). -/
def markInPaste (s : State) (n : StandNo) (c : SpliceContext) : State :=
  let count := s.countOf n
  let reloaded : SpliceContext :=
    { c with
      lastMark := some count
      watchDeadline := some (advance count (2 * c.circumference))
      phaseTarget := some (advance count (c.firePoint.getD 0)) }
  (s.modStand n fun st => { st with stall := false, context := some reloaded }).pasteIfReached n

/-- A mark of the fresh arm is taken by the splice sequence in RUN-UP and PASTE, and has no effect otherwise (R43, R75,
R79, R81). -/
def takeFreshMark (s : State) (n : StandNo) (arm : Arm) : State :=
  match (s.stand n).context with
  | none => s
  | some c =>
    if c.freshArm = some arm then
      match (s.stand n).state with
      | .runUp => s.markInRunUp n c
      | .paste => s.markInPaste n c
      | .off | .idle | .running | .waiting | .backoff | .held | .locked | .cut | .settle => s
    else s

/-! ### Abandonment into BACKOFF and LOCKED -/

/-- A stand enters BACKOFF and starts its backoff timer, keeping its level (R108). -/
def enterBackoff (s : State) (n : StandNo) : State :=
  s.modStand n fun st => { st with state := .backoff, backoffTimer := some (s.working n).retryDelay }

/-- The fresh-reel mark is lost: the splice is abandoned with MARK-LOST, and the stand enters BACKOFF (R105). -/
def loseFreshMark (s : State) (n : StandNo) : State :=
  ((s.abandon n .markLost).enterBackoff n).applyDeferredProfile n

/-- A first stall: the stall flag is set, and the stand enters BACKOFF (R107). -/
def firstStall (s : State) (n : StandNo) : State :=
  ((s.abandon n .stall).modStand n fun st => { st with stall := true }).enterBackoff n

/-- A second stall: the lock flag is set, the stand enters LOCKED, and LOCKED is filed (R107). -/
def secondStall (s : State) (n : StandNo) : State :=
  let st := s.stand n
  ((s.abandon n .stall).modStand n fun st => { st with lock := true, level := none, state := .locked }).fileSplice n
    .locked { Detail.empty with running := st.running, candidate := st.context.map (·.fresh) }

/-- The run-up timer expires in RUN-UP or PASTE (R107). -/
def stallSplice (s : State) (n : StandNo) : State :=
  (if (s.stand n).stall then s.secondStall n else s.firstStall n).applyDeferredProfile n

/-- The backoff timer expires in BACKOFF (R109). -/
def retry (s : State) (n : StandNo) : State :=
  let st := s.stand n
  let stopped := s.modStand n fun st => { st with backoffTimer := none }
  if st.queue = [] then stopped.modStand n fun st => { st with state := .running, level := none }
  else stopped.enterWaiting n (higherLevel st.level (levelCalledFor st))

/-! ### The end of SETTLE -/

/-- A splice ends COMPLETE: DRIVE is released, COMPLETE filed, the context discarded, and the stand enters HELD with its
hold flag set, RUNNING otherwise (R84). -/
def completeSplice (s : State) (n : StandNo) (c : SpliceContext) : State :=
  let filed :=
    ((s.setDrive n false).fileSplice n .complete (outcomeDetail c none)).modStand n fun st => { st with context := none }
  if (s.stand n).hold then filed.modStand n fun st => { st with state := .held } else filed.enterRunning n

/-- SETTLE ends at the settle target (R84), with the deferred actions after it (R103). -/
def endSettle (s : State) (n : StandNo) (c : SpliceContext) : State :=
  (if c.settleMarks = 2 then s.completeSplice n c else s.failSplice n c .noMarks).applyDeferred n

end State

/-- FRESH_REEL_MARK (R75, R76, R78, R79, R185). -/
def execFreshReelMark (n : StandNo) (arm : Arm) (since : Nat) (s : State) : Host.Outcome State Fault Refusal :=
  .next (atEvent (fun s => s.markEdge n arm since fun s => s.takeFreshMark n arm) s)

/-- RUN_UP_TIMER_EXPIRY (R107, R74). -/
def execRunUpTimerExpiry (n : StandNo) (s : State) : Host.Outcome State Fault Refusal :=
  .next (atEvent (fun s =>
    if beforePaste (s.stand n).state ∧ (s.stand n).runUpTimer.isSome = true then s.stallSplice n else s) s)

/-- BACKOFF_TIMER_EXPIRY (R109). -/
def execBackoffTimerExpiry (n : StandNo) (s : State) : Host.Outcome State Fault Refusal :=
  .next (atEvent (fun s =>
    if (s.stand n).state = .backoff ∧ (s.stand n).backoffTimer.isSome = true then s.retry n else s) s)

/-- BRAKE_TIMER_EXPIRY (R63). -/
def execBrakeTimerExpiry (n : StandNo) (s : State) : Host.Outcome State Fault Refusal :=
  .next (atEvent (fun s =>
    if (s.stand n).brakeTimer.isSome then
      (s.modStand n fun st => { st with brakeTimer := none }).modOutputs n fun o => { o with brake := false }
    else s) s)

/-- PULSE_END (R62, R186): the pulse timer of PASTE or KNIFE expires and the output is released. -/
def execPulseEnd (n : StandNo) (out : PulseOutput) (s : State) : Host.Outcome State Fault Refusal :=
  .next (atEvent (fun s => s.modOutputs n fun o =>
    match out with
    | .paste => { o with paste := none }
    | .knife => { o with knife := none }) s)

end Sys2Proof.Machine
end

