-- ==== Sys2Proof/Machine/StandCommands.lean ====
section
/-! DEFINITION. The commands of a stand (R33, R68, R69, R87, R88, R94 to R101, R179, R187, R188). -/

namespace Sys2Proof.Machine

/-! ### REORDER -/

/-- Whether a stand's candidate carries SPLICE-LOCK (R33). -/
def State.headLocked (s : State) (n : StandNo) : Bool :=
  ((s.stand n).queue.head?.bind s.reel).any (·.lock)

/-- REORDER taken by the stand (R33). -/
def reorder (ps : Buffer) (s : State) : Taken :=
  withStand s (byteAt ps 0) fun n =>
    if s.headLocked n then refuse s .inSplice
    else
      match (s.stand n).queue with
      | first :: second :: rest =>
        done (s.modStand n fun st => { st with queue := second :: first :: rest })
          [byteOf second.val, byteOf first.val]
      | _ => refuse s .wrongState

/-- REORDER (R33, R174, R175). -/
def execReorder (e : CmdEvent) (s : State) : Host.Outcome State Fault Refusal :=
  .next (commandRow .reorder reorder e s)

/-! ### STAND ENABLE, STAND DISABLE, STAND RESET -/

/-- The reply of a stand command that carries the stand's state. -/
def doneWithState (s : State) (n : StandNo) : Taken := done s [standStateCode (s.stand n).state]

/-- Every maintenance level of a stand is released (R188). -/
def State.releaseMaintenance (s : State) (n : StandNo) : State :=
  s.modOutputs n fun o =>
    { o with
      drive := o.drive && !o.driveMaintained
      brake := o.brake && !o.brakeMaintained
      driveMaintained := false
      brakeMaintained := false }

/-- The running reel's STALE flag is cleared and its watcher starts (R51). -/
def State.resumeMeasurement (s : State) (n : StandNo) : State :=
  match (s.stand n).running with
  | none => s
  | some h => (s.modReel h fun r => { r with stale := false }).startWatcher n

/-- A stand leaves OFF by STAND ENABLE (R99). -/
def State.enable (s : State) (n : StandNo) : State :=
  let ready := (s.releaseMaintenance n).resumeMeasurement n
  let st := s.stand n
  if st.lock then ready.modStand n fun st => { st with state := .locked }
  else if st.hold = true ∧ st.running.isSome = true then ready.modStand n fun st => { st with state := .held }
  else if st.running.isSome then ready.enterRunning n
  else ready.modStand n fun st => { st with state := .idle }

/-- STAND ENABLE taken by the stand (R99). -/
def standEnable (ps : Buffer) (s : State) : Taken :=
  withStand s (byteAt ps 0) fun n =>
    match (s.stand n).state with
    | .off => doneWithState (s.enable n) n
    | .cut | .settle => doneWithState (s.modStand n fun st => { st with deferredDisable := false }) n
    | .idle | .running | .waiting | .backoff | .held | .locked | .runUp | .paste => doneWithState s n

/-- STAND_ENABLE (R99, R188, R174, R175). -/
def execStandEnable (e : CmdEvent) (s : State) : Host.Outcome State Fault Refusal :=
  .next (commandRow .standEnable standEnable e s)

/-- STAND DISABLE taken by the stand (R97). -/
def standDisable (ps : Buffer) (s : State) : Taken :=
  withStand s (byteAt ps 0) fun n =>
    match (s.stand n).state with
    | .off => doneWithState s n
    | .cut | .settle =>
      let marked := s.modStand n fun st => { st with deferredDisable := true }
      ⟨marked, ⟨.deferred, [standStateCode (marked.stand n).state]⟩⟩
    | .runUp | .paste => doneWithState ((s.disable n).applyDeferredProfile n) n
    | .idle | .running | .waiting | .backoff | .held | .locked => doneWithState (s.disable n) n

/-- STAND_DISABLE (R97, R98, R174, R175). -/
def execStandDisable (e : CmdEvent) (s : State) : Host.Outcome State Fault Refusal :=
  .next (commandRow .standDisable standDisable e s)

/-- STAND RESET taken by the stand (R100): the Notice Unit removes the stand's pending notices first (R169). -/
def standReset (ps : Buffer) (s : State) : Taken :=
  withStand s (byteAt ps 0) fun n =>
    let quiet := s.removeStandNotices n
    match (s.stand n).state with
    | .cut | .settle =>
      let marked := quiet.modStand n fun st => { st with deferredReset := true }
      ⟨marked, ⟨.deferred, [standStateCode (marked.stand n).state]⟩⟩
    | .runUp | .paste => doneWithState ((quiet.resetStand n).applyDeferredProfile n) n
    | .off | .idle | .running | .waiting | .backoff | .held | .locked => doneWithState (quiet.resetStand n) n

/-- STAND_RESET (R100, R101, R169, R174, R175). -/
def execStandReset (e : CmdEvent) (s : State) : Host.Outcome State Fault Refusal :=
  .next (commandRow .standReset standReset e s)

/-! ### THREAD REEL -/

/-- Whether a stand can take a THREAD REEL: IDLE, HELD without a running reel, or HELD with one that has ended (R87,
R86). -/
def mayThread (st : Stand) : Bool :=
  match st.state with
  | .idle => true
  | .held => st.running.isNone || st.webBroken
  | .off | .running | .waiting | .backoff | .locked | .runUp | .paste | .cut | .settle => false

/-- A reel becomes a stand's running reel by THREAD REEL (R88). The flag test is made before the stand enters its state,
so that its events file by R67 and R71 reads the flags. -/
def State.threadOn (s : State) (n : StandNo) (h : Handle) : State :=
  let running :=
    (((s.endRunningReel n).becomeRunning h none).leaveQueue n h).modStand n fun st => { st with running := some h }
  let tested := (running.startWatcher n).testFlags n
  if (s.stand n).hold then tested.modStand n fun st => { st with state := .held } else tested.enterRunning n

/-- THREAD REEL taken by the stand (R87, R88). -/
def threadReel (ps : Buffer) (s : State) : Taken :=
  withHandle s (byteAt ps 1) fun h r =>
    withStand s (byteAt ps 0) fun n =>
      if mayThread (s.stand n) = false then refuse s .wrongState
      else if ¬((r.state = .mounted ∨ r.state = .prepared) ∧ r.place.map (·.stand) = some n) then
        refuse s .wrongState
      else if (s.web (s.pathOf n)).moving then refuse s .pathMoving
      else
        let threaded := s.threadOn n h
        done threaded [standStateCode (threaded.stand n).state, handleByte (threaded.stand n).running]

/-- THREAD_REEL (R87, R88, R174, R175). -/
def execThreadReel (e : CmdEvent) (s : State) : Host.Outcome State Fault Refusal :=
  .next (commandRow .threadReel threadReel e s)

/-! ### HOLD, RELEASE -/

/-- The reply of HOLD and RELEASE: the stand's state and hold flag (R94). -/
def doneWithHold (s : State) (n : StandNo) : Taken :=
  done s [standStateCode (s.stand n).state, flagByte (s.stand n).hold]

/-- HOLD taken by the stand (R94, R95). -/
def hold (ps : Buffer) (s : State) : Taken :=
  withStand s (byteAt ps 0) fun n =>
    if (s.stand n).hold then doneWithHold s n else doneWithHold (s.setHold n) n

/-- HOLD (R94, R95, R174, R175). -/
def execHold (e : CmdEvent) (s : State) : Host.Outcome State Fault Refusal :=
  .next (commandRow .hold hold e s)

/-- RELEASE taken by the stand (R94, R96). -/
def release (ps : Buffer) (s : State) : Taken :=
  withStand s (byteAt ps 0) fun n =>
    if (s.stand n).hold then doneWithHold (s.clearHold n) n else doneWithHold s n

/-- RELEASE (R94, R96, R174, R175). -/
def execRelease (e : CmdEvent) (s : State) : Host.Outcome State Fault Refusal :=
  .next (commandRow .release release e s)

/-! ### SPLICE SOON, SPLICE NOW -/

/-- The refusal of a splice command by the stand's queue and state, in the order of R68: none where it is taken. -/
def spliceRefusal (st : Stand) : Option Result :=
  if st.queue = [] then some .noCandidate
  else
    match st.state with
    | .runUp | .paste | .cut | .settle => some .inSplice
    | .off | .idle | .held | .locked => some .wrongState
    | .running | .waiting | .backoff => none

/-- The reply of a splice command: the stand's state and request level (R68). -/
def doneWithLevel (s : State) (n : StandNo) : Taken :=
  done s [standStateCode (s.stand n).state, levelCode (s.stand n).level]

/-- What SPLICE SOON does on a stand that takes it (R68). -/
def State.spliceSoonOn (s : State) (n : StandNo) : State :=
  if (s.stand n).state = .running then s.enterWaiting n (some .early) else s

/-- What SPLICE NOW does on a stand that takes it (R69). -/
def State.spliceNowOn (s : State) (n : StandNo) : State :=
  match (s.stand n).state with
  | .running => s.enterWaiting n (some .urgent)
  | .waiting => if levelRank (s.stand n).level < 3 then s.raiseLevel n .urgent else s
  | .backoff => s.modStand n fun st => { st with level := some .urgent }
  | .off | .idle | .held | .locked | .runUp | .paste | .cut | .settle => s

/-- SPLICE SOON taken by the stand (R68). -/
def spliceSoon (ps : Buffer) (s : State) : Taken :=
  withStand s (byteAt ps 0) fun n =>
    match spliceRefusal (s.stand n) with
    | some result => refuse s result
    | none => doneWithLevel (s.spliceSoonOn n) n

/-- SPLICE_SOON (R68, R174, R175). -/
def execSpliceSoon (e : CmdEvent) (s : State) : Host.Outcome State Fault Refusal :=
  .next (commandRow .spliceSoon spliceSoon e s)

/-- SPLICE NOW taken by the stand (R69). -/
def spliceNow (ps : Buffer) (s : State) : Taken :=
  withStand s (byteAt ps 0) fun n =>
    match spliceRefusal (s.stand n) with
    | some result => refuse s result
    | none => doneWithLevel (s.spliceNowOn n) n

/-- SPLICE_NOW (R69, R174, R175). -/
def execSpliceNow (e : CmdEvent) (s : State) : Host.Outcome State Fault Refusal :=
  .next (commandRow .spliceNow spliceNow e s)

/-! ### OUTPUT -/

/-- The reply of OUTPUT: the stand, the levels of DRIVE and BRAKE, and whether each is a maintenance level (R187). -/
def doneWithOutputs (s : State) (n : StandNo) : Taken :=
  let o := s.output n
  done s [byteOf n.val, flagByte o.drive, flagByte o.brake, flagByte o.driveMaintained, flagByte o.brakeMaintained]

/-- A DRIVE code acts: 1 releases, 2 asserts, each as a maintenance level; 0 leaves the output (R187). -/
def State.maintainDrive (s : State) (n : StandNo) (code : Nat) : State :=
  if code = 0 then s
  else s.modOutputs n fun o => { o with drive := decide (code = 2), driveMaintained := true }

/-- A BRAKE code acts: it stops a running brake timer, and 1 releases, 2 asserts, each as a maintenance level; 0 leaves
the output (R187, R63). -/
def State.maintainBrake (s : State) (n : StandNo) (code : Nat) : State :=
  if code = 0 then s
  else
    (s.modStand n fun st => { st with brakeTimer := none }).modOutputs n fun o =>
      { o with brake := decide (code = 2), brakeMaintained := true }

/-- A pulse code acts: 1 fires PASTE, 2 fires KNIFE (R187). -/
def State.maintainPulse (s : State) (n : StandNo) (code : Nat) : State :=
  match code with
  | 1 => s.startPulse n .paste
  | 2 => s.startPulse n .knife
  | _ => s

/-- Whether a pulse code names an output whose pulse is still running (R187). -/
def pulseRunning (o : Outputs) (code : Nat) : Bool :=
  match code with
  | 1 => o.paste.isSome
  | 2 => o.knife.isSome
  | _ => false

/-- OUTPUT taken by the stand (R187). -/
def output (ps : Buffer) (s : State) : Taken :=
  withStand s (byteAt ps 0) fun n =>
    let drive := byteAt ps 1
    let brake := byteAt ps 2
    let pulse := byteAt ps 3
    if 2 < drive ∨ 2 < brake ∨ 2 < pulse then refuse s .badValue
    else if (s.stand n).state ≠ .off then refuse s .wrongState
    else if pulseRunning (s.output n) pulse then refuse s .wrongState
    else doneWithOutputs (((s.maintainDrive n drive).maintainBrake n brake).maintainPulse n pulse) n

/-- OUTPUT (R187, R188, R174, R175). -/
def execOutput (e : CmdEvent) (s : State) : Host.Outcome State Fault Refusal :=
  .next (commandRow .output output e s)

/-! ### FETCH STAND -/

/-- FETCH STAND taken by the stand (R179). -/
def fetchStand (ps : Buffer) (s : State) : Taken :=
  withStand s (byteAt ps 0) fun n =>
    match byteAt ps 1 with
    | 0 => done s (standStatusImage n (s.stand n) (s.watcher n) (s.profile n))
    | 1 => done s (spliceContextImage n (s.stand n))
    | _ => refuse s .badValue

/-- FETCH_STAND (R179, R174, R175). -/
def execFetchStand (e : CmdEvent) (s : State) : Host.Outcome State Fault Refusal :=
  .next (commandRow .fetchStand fetchStand e s)

end Sys2Proof.Machine
end

