-- ==== Sys2Proof/Machine/KeyEvents.lean ====
section
/-! DEFINITION. The keys and the web break sensor of a stand: their filters (R184), and what a press or a break does (R22,
R70, R85, R89, R90, R94, R112 to R114). -/

namespace Sys2Proof.Machine

/-! ### The filters -/

/-- The filter of an input of a stand. -/
def filterOf (i : Inputs) : KeyInput → Filter
  | .loadDone .a => i.loadA
  | .loadDone .b => i.loadB
  | .loadDone .c => i.loadC
  | .hold => i.hold
  | .splice => i.splice
  | .webBreak => i.webBreak

/-- The inputs of a stand with the filter of one input replaced. -/
def withFilter (i : Inputs) (k : KeyInput) (f : Filter) : Inputs :=
  match k with
  | .loadDone .a => { i with loadA := f }
  | .loadDone .b => { i with loadB := f }
  | .loadDone .c => { i with loadC := f }
  | .hold => { i with hold := f }
  | .splice => { i with splice := f }
  | .webBreak => { i with webBreak := f }

namespace State

/-- The filter of an input is set. -/
def setFilter (s : State) (n : StandNo) (k : KeyInput) (f : Filter) : State :=
  s.modInputs n fun i => withFilter i k f

/-- The settling timer of an input expires with the input at a level, which becomes the settled level, and `event`
follows; otherwise nothing is taken (R184). -/
def atSettling (s : State) (n : StandNo) (k : KeyInput) (level : Bool) (event : State → State) : State :=
  let f := filterOf (s.standInputs n) k
  if f.timer = true ∧ f.input = level then
    event (s.setFilter n k { f with settled := level, timer := false })
  else s

/-! ### LOAD DONE -/

/-- A press of an arm's LOAD DONE key (R22). -/
def pressLoadDone (s : State) (n : StandNo) (arm : Arm) : State :=
  match s.armHolds n arm with
  | none => s.fileReel n .unregisteredLoad Detail.empty
  | some h =>
    if (s.reel h).any (fun r => decide (r.state = .mounted)) ∧ (s.stand n).queue.length < Config.queueCapacity then
      s.prepareAndOffer n h
    else s

/-! ### HOLD and SPLICE -/

/-- A press of the HOLD key inverts the hold flag (R94). -/
def pressHold (s : State) (n : StandNo) : State :=
  if (s.stand n).hold then s.clearHold n else s.setHold n

/-- A press of the SPLICE key acts as SPLICE NOW where it would answer DONE (R70). -/
def pressSplice (s : State) (n : StandNo) : State :=
  if spliceRefusal (s.stand n) = none then s.spliceNowOn n else s

/-! ### WEB BREAK -/

/-- A web break is only reported: WEB-BREAK is filed and the web-broken flag set (R90, R114). -/
def reportBreak (s : State) (n : StandNo) : State :=
  (s.modStand n fun st => { st with webBroken := true }).fileWebBreak n

/-- The running reel's end by a web break: it becomes BUTT, and RUNOUT is filed (R89, R112, R114). -/
def endReelByBreak (s : State) (n : StandNo) : State :=
  (s.endRunningReel n).fileLine (standSource n) .runout { Detail.empty with running := (s.stand n).running }

/-- A web end in RUNNING, WAITING or BACKOFF takes the stand to IDLE (R89). -/
def webEnd (s : State) (n : StandNo) : State :=
  ((s.withdrawIfWaiting n).endReelByBreak n).modStand n fun st =>
    { st with state := .idle, level := none, backoffTimer := none }

/-- A web break in RUN-UP or PASTE (R112). -/
def breakBeforePaste (s : State) (n : StandNo) : State :=
  let abandoned := s.abandon n .webBreak
  let broken :=
    if (s.stand n).critical then
      (abandoned.modStand n fun st => { st with state := .idle, level := none }).endReelByBreak n
    else
      (abandoned.modStand n fun st => { st with state := .held, level := none, hold := true }).reportBreak n
  broken.applyDeferredProfile n

/-- A web break in HELD, LOCKED or OFF (R114). -/
def breakAtRest (s : State) (n : StandNo) : State :=
  match (s.stand n).running with
  | none => s.fileWebBreak n
  | some _ => if (s.stand n).critical then s.endReelByBreak n else s.reportBreak n

/-- A web break in CUT is recorded in the splice context (R113); the running reel stays RUNNING at it, so the web-broken flag is set
(R86). Nothing is filed. -/
def recordBreak (s : State) (n : StandNo) : State :=
  s.modStand n fun st =>
    { st with
      webBroken := st.webBroken || st.running.isSome
      context := st.context.map fun c => { c with breakInCut := true } }

/-- A web break is taken by the stand in its state (Figure 25). -/
def takeBreak (s : State) (n : StandNo) : State :=
  match (s.stand n).state with
  | .running | .waiting | .backoff => if (s.stand n).critical then s.webEnd n else s.reportBreak n
  | .runUp | .paste => s.breakBeforePaste n
  | .cut => s.recordBreak n
  | .settle =>
    match (s.stand n).context with
    | none => s
    | some c => s.breakInSettle n c
  | .held | .locked | .off => s.breakAtRest n
  | .idle => s.fileWebBreak n

/-! ### Input changes -/

/-- A change of a filtered input to a level: away from the settled level it starts the settling timer, back to it stops
the timer (R184). While the controller initialises, the input moves and starts nothing. -/
def changeInput (s : State) (n : StandNo) (k : KeyInput) (level : Bool) : State :=
  let f := filterOf (s.standInputs n) k
  if f.input = level then s
  else s.setFilter n k { f with input := level, timer := decide (s.phase = .ready) && level != f.settled }

end State

/-- LOAD_DONE (R22, R184). -/
def execLoadDone (n : StandNo) (arm : Arm) (s : State) : Host.Outcome State Fault Refusal :=
  .next (atEvent (fun s => s.atSettling n (.loadDone arm) true fun s => s.pressLoadDone n arm) s)

/-- HOLD_KEY (R94 to R96, R184). -/
def execHoldKey (n : StandNo) (s : State) : Host.Outcome State Fault Refusal :=
  .next (atEvent (fun s => s.atSettling n .hold true fun s => s.pressHold n) s)

/-- SPLICE_KEY (R70, R184). -/
def execSpliceKey (n : StandNo) (s : State) : Host.Outcome State Fault Refusal :=
  .next (atEvent (fun s => s.atSettling n .splice true fun s => s.pressSplice n) s)

/-- WEB_BREAK (R85, R89, R90, R112 to R114, R184). -/
def execWebBreak (n : StandNo) (s : State) : Host.Outcome State Fault Refusal :=
  .next (atEvent (fun s => s.atSettling n .webBreak true fun s => s.takeBreak n) s)

/-- KEY_INPUT_CHANGE (R184). -/
def execKeyInputChange (n : StandNo) (k : KeyInput) (level : Bool) (s : State) : Host.Outcome State Fault Refusal :=
  .next (s.changeInput n k level)

/-- FILTER_SETTLES_INACTIVE (R184): nothing is handed on. -/
def execFilterSettlesInactive (n : StandNo) (k : KeyInput) (s : State) : Host.Outcome State Fault Refusal :=
  .next (atEvent (fun s => s.atSettling n k false id) s)

end Sys2Proof.Machine
end

