-- ==== Sys2Proof/Machine/NoticeCommands.lean ====
section
/-! DEFINITION. The commands of the Notice Unit (R166 to R168). -/

namespace Sys2Proof.Machine

/-- The pending notice of a source and class; a path's source has none in REEL and SPLICE (section 9.1). -/
def NoticeUnit.pendingOf (u : NoticeUnit) (cls : NoticeClass) (src : Source) : Option Notice :=
  match cls with
  | .reel => (u.reel[src.val]?).join
  | .splice => (u.splice[src.val]?).join
  | .line => u.line[src]

/-- The rotation pointer of a class (Figure 37). -/
def NoticeUnit.pointer (u : NoticeUnit) : NoticeClass → Source
  | .reel => u.reelPointer
  | .splice => u.splicePointer
  | .line => u.linePointer

/-- The sources in the order of a search: from the source after the pointer round to the pointer's own (R166). -/
def searchOrder (pointer : Source) : List Source :=
  (List.finRange 16).map fun i => pointer + 1 + i

/-- The source whose notice the next acceptance of a class takes, with the notice (R166). -/
def NoticeUnit.nextNotice (u : NoticeUnit) (cls : NoticeClass) : Option (Source × Notice) :=
  (searchOrder (u.pointer cls)).findSome? fun src => (u.pendingOf cls src).map fun w => (src, w)

/-- The pending notice of a source and class leaves, and the rotation pointer of the class is set to the source
(R166). -/
def NoticeUnit.takeFrom (u : NoticeUnit) (cls : NoticeClass) (src : Source) : NoticeUnit :=
  match cls with
  | .reel => { u with reel := u.reel.setIfInBounds src.val none, reelPointer := src }
  | .splice => { u with splice := u.splice.setIfInBounds src.val none, splicePointer := src }
  | .line => { u with line := u.line.set src none, linePointer := src }

/-- ACCEPT NOTICE taken by the Notice Unit (R166). -/
def acceptNotice (ps : Buffer) (s : State) : Taken :=
  match classOfCode (byteAt ps 0) with
  | none => refuse s .badValue
  | some cls =>
    match s.notices.opened with
    | some o => ⟨s, ⟨.noticeOpen, noticeImage o⟩⟩
    | none =>
      match s.notices.nextNotice cls with
      | none => refuse s .noNotice
      | some (src, w) =>
        let o : OpenNotice := ⟨src, cls, w⟩
        done (s.modNotices fun u => { u.takeFrom cls src with opened := some o }.judge) (noticeImage o)

/-- ACCEPT_NOTICE (R166, R174, R175). -/
def execAcceptNotice (e : CmdEvent) (s : State) : Host.Outcome State Fault Refusal :=
  .next (commandRow .acceptNotice acceptNotice e s)

/-- The open notice is discarded and SRQ judged again (R168, R170). -/
def State.discardOpenNotice (s : State) : State :=
  s.modNotices fun u => { u with opened := none }.judge

/-- END NOTICE taken by the Notice Unit (R168). -/
def endNotice (_ : Buffer) (s : State) : Taken :=
  match s.notices.opened with
  | none => refuse s .noneOpen
  | some o => done s.discardOpenNotice [byteOf o.source.val, classCode o.cls]

/-- END_NOTICE (R168, R174, R175). -/
def execEndNotice (e : CmdEvent) (s : State) : Host.Outcome State Fault Refusal :=
  .next (commandRow .endNotice endNotice e s)

end Sys2Proof.Machine
end

