-- ==== Sys2Proof/Machine/TransitEvents.lean ====
section
/-! DEFINITION. The targets of the transit records (R141, R142, R144). -/

namespace Sys2Proof.Machine

namespace State

/-- A record reaches its reject start and becomes REJECTING (R141). -/
def startReject (s : State) (p : PathNo) (position : Nat) : State :=
  (s.modTransit p fun t =>
    { t with queue := t.queue.modify position fun r => { r with rejecting := true } }).setReject p

/-- A record reaches its reject end and is removed, from whatever position it holds (R142). -/
def endReject (s : State) (p : PathNo) (position : Nat) : State :=
  ((s.modTransit p fun t => { t with queue := t.queue.eraseIdx position }).setReject p).reportDecision p

/-- A record's guard is reached and reported (R144). -/
def reachGuard (s : State) (p : PathNo) (position : Nat) : State :=
  (s.modTransit p fun t =>
    { t with queue := t.queue.modify position fun r => { r with guardReached := true } }).reportDecision p

end State

end Sys2Proof.Machine
end

