-- ==== Sys2Proof/Machine/Targets.lean ====
section
/-! DEFINITION. The targets that the blocks set on the path counters (R40), said once for all of them: which are pending and at
what count, when one is reached, and what its owner then does. The row of each target takes it. -/

namespace Sys2Proof.Machine

/-- The targets on the path counters: of a stand's watcher (R47, R48), of its splice (R76, R79, R80, R82), and of a path's transit
records by their position, 0 the oldest (R136). -/
inductive Target where
  | runMarkDeadline (stand : StandNo)
  | reckoningStep (stand : StandNo)
  | freshReelMarkDeadline (stand : StandNo)
  | paste (stand : StandNo)
  | cut (stand : StandNo)
  | settle (stand : StandNo)
  | rejectStart (path : PathNo) (position : Nat)
  | rejectEnd (path : PathNo) (position : Nat)
  | guardCount (path : PathNo) (position : Nat)
  deriving DecidableEq, Repr

namespace State

/-- The path on whose counter a target is set: a stand's targets are on the path of its working profile. -/
def targetPath (s : State) : Target → PathNo
  | .runMarkDeadline n | .reckoningStep n | .freshReelMarkDeadline n | .paste n | .cut n | .settle n => s.pathOf n
  | .rejectStart p _ | .rejectEnd p _ | .guardCount p _ => p

/-- A target of a stand's splice context, pending while the stand is in the target's stage (R60). -/
def contextTarget (s : State) (n : StandNo) (stage : StandState) (target : SpliceContext → Option Count) : Option Count :=
  if (s.stand n).state = stage then (s.stand n).context.bind target else none

/-- The count at which a target is pending, if it is (R40). -/
def pendingTarget (s : State) : Target → Option Count
  | .runMarkDeadline n =>
    match (s.watcher n).state with
    | .starting | .timing => (s.watcher n).deadline
    | .idle | .reckoning => none
  | .reckoningStep n =>
    match (s.watcher n).state with
    | .reckoning => (s.watcher n).reckoningCount.map fun c => advance c 1000
    | .idle | .starting | .timing => none
  | .freshReelMarkDeadline n =>
    if beforePaste (s.stand n).state then (s.stand n).context.bind (·.watchDeadline) else none
  | .paste n => s.contextTarget n .paste (·.phaseTarget)
  | .cut n => s.contextTarget n .cut (·.knifeTarget)
  | .settle n => s.contextTarget n .settle (·.settleTarget)
  | .rejectStart p position =>
    (s.transit p).queue[position]?.bind fun r => if r.rejecting then none else some r.rejectStart
  | .rejectEnd p position => (s.transit p).queue[position]?.map (·.rejectEnd)
  | .guardCount p position =>
    (s.transit p).queue[position]?.bind fun r => if r.guardReached then none else some r.guardCount

/-- Whether a target is pending and its counter has reached it (R40). -/
def targetDue (s : State) (t : Target) : Bool :=
  (s.pendingTarget t).any fun c => reached (s.web (s.targetPath t)).counter c

/-- An event of a stand's splice context. -/
def onContext (s : State) (n : StandNo) (event : SpliceContext → State) : State :=
  match (s.stand n).context with
  | none => s
  | some c => event c

/-- What the owner of a target does when it is reached at a count: the loss of a run mark (R47), a reckoning step (R48), the loss of
the fresh-reel mark (R105), the paste (R80), the cut (R82), the end of SETTLE (R84), and the events of a transit record (R141, R142,
R144). -/
def takeTarget (s : State) (t : Target) (count : Count) : State :=
  match t with
  | .runMarkDeadline n => s.loseRunMark n count
  | .reckoningStep n => s.takeReckoningStep n count
  | .freshReelMarkDeadline n => s.loseFreshMark n
  | .paste n => s.onContext n fun c => s.takePaste n c count
  | .cut n => s.onContext n fun c => s.makeCut n c
  | .settle n => s.onContext n fun c => s.endSettle n c
  | .rejectStart p position => s.startReject p position
  | .rejectEnd p position => s.endReject p position
  | .guardCount p position => s.reachGuard p position

/-- The event of a target: taken when the target is pending and reached; a target that is not, or that was cancelled, is not taken
(R40). -/
def atTarget (s : State) (t : Target) : State :=
  match s.pendingTarget t with
  | none => s
  | some c => if reached (s.web (s.targetPath t)).counter c then s.takeTarget t c else s

/-! ### The targets of a path -/

/-- The targets of a stand. -/
def standTargets (n : StandNo) : List Target :=
  [.runMarkDeadline n, .reckoningStep n, .freshReelMarkDeadline n, .paste n, .cut n, .settle n]

/-- The targets of the transit records of a path; a removal leaves the positions before it. -/
def transitTargets (p : PathNo) : List Target :=
  [.rejectEnd p 3, .rejectEnd p 2, .rejectEnd p 1, .rejectEnd p 0, .rejectStart p 0, .rejectStart p 1, .rejectStart p 2,
    .rejectStart p 3, .guardCount p 0, .guardCount p 1, .guardCount p 2, .guardCount p 3]

/-- Every target that can stand on a path's counter. -/
def targetsOf (p : PathNo) : List Target :=
  transitTargets p ++ (List.finRange 12).flatMap standTargets

/-- A target on a path's counter that is due is taken, with the decisions it prompts (R40, R121). -/
def takeIfDue (p : PathNo) (s : State) (t : Target) : State :=
  if s.targetPath t = p ∧ s.targetDue t = true then (s.atTarget t).settleDecisions else s

/-- The targets that the last pulse of a path has reached and whose rows have not come are taken, each as an event of its own,
while the counter still stands at that pulse (R40; log 7 for their order). -/
def takeReached (s : State) (p : PathNo) : State :=
  (targetsOf p).foldl (takeIfDue p) s

end State

/-! ### The rows -/

/-- The row of a target: its event, and the decisions that follow it (R40, R121). -/
def targetRow (t : Target) (s : State) : State := atEvent (fun s => s.atTarget t) s

/-- RUN_MARK_DEADLINE (R47): the deadline of a watcher in STARTING or TIMING is reached. -/
def execRunMarkDeadline (n : StandNo) (s : State) : Host.Outcome State Fault Refusal :=
  .next (targetRow (.runMarkDeadline n) s)

/-- RECKONING_STEP (R48): the counter reaches the reckoning count + 1,000. -/
def execReckoningStep (n : StandNo) (s : State) : Host.Outcome State Fault Refusal := .next (targetRow (.reckoningStep n) s)

/-- FRESH_REEL_MARK_DEADLINE (R105, R76). -/
def execFreshReelMarkDeadline (n : StandNo) (s : State) : Host.Outcome State Fault Refusal :=
  .next (targetRow (.freshReelMarkDeadline n) s)

/-- PASTE (R80, R129, R136). -/
def execPaste (n : StandNo) (s : State) : Host.Outcome State Fault Refusal := .next (targetRow (.paste n) s)

/-- CUT (R82, R113). -/
def execCut (n : StandNo) (s : State) : Host.Outcome State Fault Refusal := .next (targetRow (.cut n) s)

/-- SETTLE_TARGET_REACHED (R84, R103). -/
def execSettleTargetReached (n : StandNo) (s : State) : Host.Outcome State Fault Refusal := .next (targetRow (.settle n) s)

/-- REJECT_START (R141). -/
def execRejectStart (p : PathNo) (position : Nat) (s : State) : Host.Outcome State Fault Refusal :=
  .next (targetRow (.rejectStart p position) s)

/-- REJECT_END (R142, R120, R121). -/
def execRejectEnd (p : PathNo) (position : Nat) (s : State) : Host.Outcome State Fault Refusal :=
  .next (targetRow (.rejectEnd p position) s)

/-- GUARD_COUNT_REACHED (R144, R120, R121). -/
def execGuardCountReached (p : PathNo) (position : Nat) (s : State) : Host.Outcome State Fault Refusal :=
  .next (targetRow (.guardCount p position) s)

end Sys2Proof.Machine
end

