-- ==== Sys2Proof/Machine/PathEvents.lean ====
section
/-! DEFINITION. The steps of a path's web: its pulses and the expiry of its motion timer (R39 to R42, R104, R185). -/

namespace Sys2Proof.Machine

namespace State

/-- A web pulse: the counter advances, a STOPPED path becomes MOVING and files PATH-STARTED, and the motion timer is
restarted for the stop time of the path's settings (R39, R41). -/
def takePulse (s : State) (p : PathNo) : State :=
  let counted := s.modWeb p fun w =>
    { counter := w.counter + 1
      moving := true
      motionTimer := some (s.setting p).stopTime
      pulseTaken := true }
  if (s.web p).moving then counted else counted.fileLine (pathSource p) .pathStarted Detail.empty

/-- An edge of a WEB PULSE input: it is a pulse when it comes 40 µs or more after the last, and the first after
initialisation is one in any case (R185). The targets that the pulse before it reached are taken before it counts (R40). -/
def pulseEdge (s : State) (p : PathNo) (since : Nat) : State :=
  if (s.web p).pulseTaken = true ∧ since < Config.pulseSpacingMicros then s else (s.takeReached p).takePulse p

/-- A stand takes the stop of its path: its splice is abandoned with reason PATH-STOP and it re-enters WAITING; the
decision that this prompts follows it (R104, R130). -/
def takePathStop (s : State) (n : StandNo) : State :=
  if beforePaste (s.stand n).state then (s.abandonToWaitingWith forcedTake n .pathStop).settleDecisions else s

/-- The stands that a path stop concerns, those that `order` names first and in its order (R104, log 5). -/
def stoppedStands (s : State) (p : PathNo) (order : List StandNo) : List StandNo :=
  let concerned := (s.standsOf p).filter fun n => beforePaste (s.stand n).state
  (order.filter fun n => n ∈ concerned).dedup ++ concerned.filter fun n => n ∉ order

/-- The path becomes STOPPED and files PATH-STOPPED, and its stands take the stop, each at its own event (R41, R104). -/
def stopPath (s : State) (p : PathNo) (order : List StandNo) : State :=
  let stopped :=
    (s.modWeb p fun w => { w with moving := false, motionTimer := none }).fileLine (pathSource p) .pathStopped
      Detail.empty
  (s.stoppedStands p order).foldl (fun s n => s.takePathStop n) stopped

/-- The motion timer of a path expires, the stop time after its last pulse: what that pulse reached is taken before it (R40,
R41). -/
def expireMotionTimer (s : State) (p : PathNo) (order : List StandNo) : State :=
  if (s.web p).motionTimer.isSome then (s.takeReached p).stopPath p order else s

end State

/-- WEB_PULSE (R39, R40, R41, R185). -/
def execWebPulse (p : PathNo) (since : Nat) (s : State) : Host.Outcome State Fault Refusal :=
  .next (atEvent (fun s => s.pulseEdge p since) s)

/-- MOTION_TIMER_EXPIRY (R40, R41, R104). -/
def execMotionTimerExpiry (p : PathNo) (order : List StandNo) (s : State) : Host.Outcome State Fault Refusal :=
  .next (atEvent (fun s => s.expireMotionTimer p order) s)

end Sys2Proof.Machine
end

