-- ==== Sys2Proof/Machine/PortRows.lean ====
section
/-! DEFINITION. The steps of the Press Port that are not commands handed to a block (R172 to R174, R176, R177, R180,
R163), device reset and initialisation (R181). -/

namespace Sys2Proof.Machine

namespace State

/-! ### Reading the registers -/

/-- The status register (Figure 41). -/
def statusRegister (s : State) : Byte :=
  bitsByte [s.port.busy, decide (s.phase = .ready), s.port.overrun, s.notices.srq, s.notices.opened.isSome]

/-- The notice summary (Figure 41, R165). -/
def summaryRegister (s : State) : Byte :=
  bitsByte [s.notices.anyPending .reel, s.notices.anyPending .splice, s.notices.anyPending .line,
    s.notices.opened.isSome]

/-- The class enables register (Figure 41, R163). -/
def enableRegister (s : State) : Byte :=
  bitsByte [s.notices.reelEnable, s.notices.spliceEnable, s.notices.lineEnable]

/-- The identification register: 00h until initialisation completes, then 2Ah (R181). -/
def identification (s : State) : Byte := if s.phase = .ready then 0x2A else 0

/-- What a read of a register returns (Figure 40, R172). While READY is clear, every register other than the status and
the identification reads 00h. -/
def readRegister (s : State) (offset : Fin 8) : Byte :=
  match offset with
  | 2 => s.statusRegister
  | 7 => s.identification
  | 0 => if s.phase = .ready then s.port.command else 0
  | 1 => if s.phase = .ready then s.port.result else 0
  | 3 => if s.phase = .ready then s.port.buffer[s.port.index] else 0
  | 4 => if s.phase = .ready then byteOf s.port.index.val else 0
  | 5 => if s.phase = .ready then s.summaryRegister else 0
  | 6 => if s.phase = .ready then s.enableRegister else 0

/-! ### Writing the registers -/

/-- A write of 03h (R173, R176). -/
def writeBuffer (s : State) (value : Byte) : State :=
  if s.port.busy then s.modPort fun q => { q with overrun := true }
  else s.modPort fun q => { q with buffer := q.buffer.set q.index value, index := q.index + 1 }

/-- A write of 04h (R173, R176). -/
def writeIndex (s : State) (value : Byte) : State :=
  if s.port.busy then s.modPort fun q => { q with overrun := true }
  else if inBuffer : value.toNat < Config.bufferBytes then s.modPort fun q => { q with index := ⟨value.toNat, inBuffer⟩ }
  else s

/-- A write of 06h replaces the three class enables and judges SRQ again (R163, R164). -/
def writeEnables (s : State) (value : Byte) : State :=
  s.modNotices fun u =>
    { u with
      reelEnable := value.getLsbD 0
      spliceEnable := value.getLsbD 1
      lineEnable := value.getLsbD 2 }.judge

/-- PORT RESET (R180, R170): the port's registers and buffer are cleared, the commands in progress lose their result
and reply, and the open notice is discarded. -/
def resetPort (s : State) : State :=
  (s.modPort fun q =>
    { q with
      command := 0
      result := 0
      busy := false
      overrun := false
      buffer := Vector.replicate Config.bufferBytes 0
      index := 0
      handed := q.handed.map fun h => { h with discarded := true }
      answer := none }).discardOpenNotice

/-- A write of 07h (R172, R180). -/
def writeControl (s : State) (value : Byte) : State :=
  if value.getLsbD 0 then s.resetPort else s

/-- A write of a register (Figure 40, R172); while READY is clear every write is ignored. -/
def writeRegister (s : State) (offset : Fin 8) (value : Byte) : State :=
  if s.phase = .ready then
    match offset with
    | 0 => s.writeCode value
    | 1 => s
    | 2 => s
    | 3 => s.writeBuffer value
    | 4 => s.writeIndex value
    | 5 => s
    | 6 => s.writeEnables value
    | 7 => s.writeControl value
  else s

/-- A read of 03h: the byte at the index goes out on the data lines, and the index advances, from 23 to 0, whether or
not BUSY is set (R173, R176); while READY is clear it reads 00h and changes nothing else (R172, log 12). -/
def readBuffer (s : State) : State :=
  if s.phase = .ready then s.modPort fun q => { q with dataLines := q.buffer[q.index], index := q.index + 1 }
  else s.modPort fun q => { q with dataLines := 0 }

/-- A filter when initialisation completes takes the input's present level as its settled level (R184). -/
def takeLevel (f : Filter) : Filter := { f with settled := f.input, timer := false }

/-- The inputs of a stand when initialisation completes: the levels are taken (R184), and the next edge of each arm counts as a mark
(R185). -/
def takeLevels (i : Inputs) : Inputs :=
  { i with
    loadA := takeLevel i.loadA
    loadB := takeLevel i.loadB
    loadC := takeLevel i.loadC
    hold := takeLevel i.hold
    splice := takeLevel i.splice
    webBreak := takeLevel i.webBreak
    markTakenA := false
    markTakenB := false
    markTakenC := false }

end State

/-! ### The rows -/

/-- UNDEFINED_COMMAND_CODE (R174): the code write of a code that names no command. -/
def execUndefinedCommandCode (code : Byte) (s : State) : Host.Outcome State Fault Refusal :=
  .next (s.writeRegister 0 code)

/-- COMMAND_COMPLETION (R177): the command whose owning block has answered completes. -/
def execCommandCompletion (s : State) : Host.Outcome State Fault Refusal :=
  .next (match s.port.answer with
    | some a => s.complete a
    | none => s)

/-- BUFFER_READ (R173, R176). -/
def execBufferRead (s : State) : Host.Outcome State Fault Refusal := .next s.readBuffer

/-- BUFFER_WRITE (R173, R176). -/
def execBufferWrite (value : Byte) (s : State) : Host.Outcome State Fault Refusal := .next (s.writeRegister 3 value)

/-- INDEX_WRITE (R173, R176). -/
def execIndexWrite (value : Byte) (s : State) : Host.Outcome State Fault Refusal := .next (s.writeRegister 4 value)

/-- CLASS_ENABLE_WRITE (R163). -/
def execClassEnableWrite (value : Byte) (s : State) : Host.Outcome State Fault Refusal := .next (s.writeRegister 6 value)

/-- PORT_RESET (R180). -/
def execPortReset (value : Byte) (s : State) : Host.Outcome State Fault Refusal := .next (s.writeRegister 7 value)

/-- IGNORED_REGISTER_WRITE (R172, R174; log 22). -/
def execIgnoredRegisterWrite (offset : Fin 8) (value : Byte) (s : State) : Host.Outcome State Fault Refusal :=
  .next (s.writeRegister offset value)

/-- No block takes DEVICE RESET (R181). -/
def deviceResetNotTaken (_ : Buffer) (s : State) : Taken := refuse s .done

/-- DEVICE_RESET (R181): its taking at the port is the reset; it is not handed to a block. -/
def execDeviceReset (e : CmdEvent) (s : State) : Host.Outcome State Fault Refusal :=
  .next (commandRow .deviceReset deviceResetNotTaken e s)

/-- RESET_LINE_ASSERTED (R181). -/
def execResetLineAsserted (s : State) : Host.Outcome State Fault Refusal := .next (s.deviceReset .inReset)

/-- RESET_LINE_RELEASED (R181): initialisation begins. -/
def execResetLineReleased (s : State) : Host.Outcome State Fault Refusal :=
  .next (if s.phase = .inReset then { s with phase := .initialising } else s)

/-- INITIALISATION_COMPLETE (R181, R182, R184). -/
def execInitialisationComplete (s : State) : Host.Outcome State Fault Refusal :=
  .next (if s.phase = .initialising then { s with phase := .ready, inputs := Vector.ofFn fun n => State.takeLevels (s.standInputs n) } else s)

end Sys2Proof.Machine
end

