-- ==== Sys2Proof/Machine/ProfileCommands.lean ====
section
/-! DEFINITION. The commands of the Profile Store (R150 to R158, R179). -/

namespace Sys2Proof.Machine

/-- Whether a profile field number lies in 1 to 17 (R150, R151). -/
def isProfileField (field : Nat) : Bool := within 1 17 field

/-- PROFILE WRITE taken by the Profile Store (R150). -/
def profileWrite (ps : Buffer) (s : State) : Taken :=
  withStand s (byteAt ps 0) fun n =>
    let field := byteAt ps 1
    let value := valueAt ps 2 4
    if isProfileField field then
      done (s.modProfile n fun q => { q with staged := withProfileField q.staged field value })
        ([byteOf n.val, byteOf field] ++ leBytes 4 value)
    else refuse s .badValue

/-- PROFILE_WRITE (R150, R174, R175). -/
def execProfileWrite (e : CmdEvent) (s : State) : Host.Outcome State Fault Refusal :=
  .next (commandRow .profileWrite profileWrite e s)

/-- PROFILE READ taken by the Profile Store (R151). -/
def profileRead (ps : Buffer) (s : State) : Taken :=
  withStand s (byteAt ps 0) fun n =>
    let field := byteAt ps 1
    let copy := byteAt ps 2
    if isProfileField field then
      match copy with
      | 0 =>
        done s ([byteOf n.val, byteOf field, byteOf copy] ++ leBytes 4 (profileField (s.profile n).staged field))
      | 1 =>
        done s ([byteOf n.val, byteOf field, byteOf copy] ++ leBytes 4 (profileField (s.profile n).working field))
      | _ => refuse s .badValue
    else refuse s .badValue

/-- PROFILE_READ (R151, R174, R175). -/
def execProfileRead (e : CmdEvent) (s : State) : Host.Outcome State Fault Refusal :=
  .next (commandRow .profileRead profileRead e s)

/-- PROFILE CHANGE taken by the Profile Store (R153): deferred while the stand is splicing, otherwise validated and
applied or refused. -/
def profileChange (ps : Buffer) (s : State) : Taken :=
  withStand s (byteAt ps 0) fun n =>
    if splicing (s.stand n).state then
      ⟨(s.modStand n fun st => { st with deferredProfile := true }).setOutcome n .pending 0, ⟨.deferred, []⟩⟩
    else
      match s.validateProfile n with
      | some field => ⟨s.setOutcome n .refused field, ⟨.badProfile, [byteOf field]⟩⟩
      | none =>
        let applied := (s.setOutcome n .applied 0).applyProfile n
        done applied [standStateCode (applied.stand n).state]

/-- PROFILE_CHANGE (R153, R154, R174, R175). -/
def execProfileChange (e : CmdEvent) (s : State) : Host.Outcome State Fault Refusal :=
  .next (commandRow .profileChange profileChange e s)

/-- The settings that PATH SET carries (R178). -/
def settingsOf (ps : Buffer) : PathSettings where
  guardLength := valueAt ps 1 3
  rejectLead := valueAt ps 4 2
  rejectLength := valueAt ps 6 3
  stopTime := valueAt ps 9 2

/-- The lowest-numbered stand of a path whose gate distance is below a reject lead, if any (R157). -/
def State.standBelowLead (s : State) (p : PathNo) (lead : Nat) : Option StandNo :=
  (s.standsOf p).find? fun n => (s.working n).gateDistance < lead

/-- PATH SET taken by the Profile Store (R157). -/
def pathSet (ps : Buffer) (s : State) : Taken :=
  withPath s (byteAt ps 0) fun p =>
    let g := settingsOf ps
    if settingsInRange g then
      match s.standBelowLead p g.rejectLead with
      | some n => ⟨s, ⟨.badProfile, [byteOf n.val]⟩⟩
      | none => done (s.setSetting p g) (settingsBytes g)
    else refuse s .badValue

/-- PATH_SET (R157, R158, R174, R175). -/
def execPathSet (e : CmdEvent) (s : State) : Host.Outcome State Fault Refusal :=
  .next (commandRow .pathSet pathSet e s)

/-- FETCH PATH taken by the Profile Store (R179). -/
def fetchPath (ps : Buffer) (s : State) : Taken :=
  withPath s (byteAt ps 0) fun p =>
    match byteAt ps 1 with
    | 0 => done s (pathStatusImage s p)
    | 5 => done s (settingsImage p (s.setting p))
    | part =>
      if part ≤ 4 then done s (transitRecordImage p part (s.transit p).queue[part - 1]?)
      else refuse s .badValue

/-- FETCH_PATH (R179, R174, R175). -/
def execFetchPath (e : CmdEvent) (s : State) : Host.Outcome State Fault Refusal :=
  .next (commandRow .fetchPath fetchPath e s)

end Sys2Proof.Machine
end

