-- ==== Sys2Proof/Machine/Dispatch.lean ====
section
/-! DEFINITION. The meaning of every row of the opcode table, one arm per constructor of `Instr`. -/

namespace Sys2Proof.Machine

/-- The effect of a step on everything but the queue of waiting commands. -/
def exec (i : Instr) (s : State) : Host.Outcome State Fault Refusal :=
  match i with
  | .enterReel e => Sys2Proof.Machine.execEnterReel e s
  | .findReel e => Sys2Proof.Machine.execFindReel e s
  | .fetchReel e => Sys2Proof.Machine.execFetchReel e s
  | .amendReel e => Sys2Proof.Machine.execAmendReel e s
  | .mountReel e => Sys2Proof.Machine.execMountReel e s
  | .prepareReel e => Sys2Proof.Machine.execPrepareReel e s
  | .unmountReel e => Sys2Proof.Machine.execUnmountReel e s
  | .retireReel e => Sys2Proof.Machine.execRetireReel e s
  | .reorder e => Sys2Proof.Machine.execReorder e s
  | .standEnable e => Sys2Proof.Machine.execStandEnable e s
  | .standDisable e => Sys2Proof.Machine.execStandDisable e s
  | .standReset e => Sys2Proof.Machine.execStandReset e s
  | .threadReel e => Sys2Proof.Machine.execThreadReel e s
  | .hold e => Sys2Proof.Machine.execHold e s
  | .release e => Sys2Proof.Machine.execRelease e s
  | .spliceSoon e => Sys2Proof.Machine.execSpliceSoon e s
  | .spliceNow e => Sys2Proof.Machine.execSpliceNow e s
  | .output e => Sys2Proof.Machine.execOutput e s
  | .fetchStand e => Sys2Proof.Machine.execFetchStand e s
  | .profileWrite e => Sys2Proof.Machine.execProfileWrite e s
  | .profileRead e => Sys2Proof.Machine.execProfileRead e s
  | .profileChange e => Sys2Proof.Machine.execProfileChange e s
  | .pathSet e => Sys2Proof.Machine.execPathSet e s
  | .fetchPath e => Sys2Proof.Machine.execFetchPath e s
  | .acceptNotice e => Sys2Proof.Machine.execAcceptNotice e s
  | .endNotice e => Sys2Proof.Machine.execEndNotice e s
  | .deviceReset e => Sys2Proof.Machine.execDeviceReset e s
  | .undefinedCommandCode code => Sys2Proof.Machine.execUndefinedCommandCode code s
  | .commandCompletion => Sys2Proof.Machine.execCommandCompletion s
  | .bufferRead => Sys2Proof.Machine.execBufferRead s
  | .bufferWrite value => Sys2Proof.Machine.execBufferWrite value s
  | .indexWrite value => Sys2Proof.Machine.execIndexWrite value s
  | .classEnableWrite value => Sys2Proof.Machine.execClassEnableWrite value s
  | .portReset value => Sys2Proof.Machine.execPortReset value s
  | .ignoredRegisterWrite offset value => Sys2Proof.Machine.execIgnoredRegisterWrite offset value s
  | .resetLineAsserted => Sys2Proof.Machine.execResetLineAsserted s
  | .resetLineReleased => Sys2Proof.Machine.execResetLineReleased s
  | .initialisationComplete => Sys2Proof.Machine.execInitialisationComplete s
  | .webPulse p since => Sys2Proof.Machine.execWebPulse p since s
  | .motionTimerExpiry p order => Sys2Proof.Machine.execMotionTimerExpiry p order s
  | .runMark n arm since => Sys2Proof.Machine.execRunMark n arm since s
  | .runMarkDeadline n => Sys2Proof.Machine.execRunMarkDeadline n s
  | .reckoningStep n => Sys2Proof.Machine.execReckoningStep n s
  | .freshReelMark n arm since => Sys2Proof.Machine.execFreshReelMark n arm since s
  | .freshReelMarkDeadline n => Sys2Proof.Machine.execFreshReelMarkDeadline n s
  | .runUpTimerExpiry n => Sys2Proof.Machine.execRunUpTimerExpiry n s
  | .backoffTimerExpiry n => Sys2Proof.Machine.execBackoffTimerExpiry n s
  | .paste n => Sys2Proof.Machine.execPaste n s
  | .cut n => Sys2Proof.Machine.execCut n s
  | .settleTargetReached n => Sys2Proof.Machine.execSettleTargetReached n s
  | .brakeTimerExpiry n => Sys2Proof.Machine.execBrakeTimerExpiry n s
  | .pulseEnd n out => Sys2Proof.Machine.execPulseEnd n out s
  | .rejectStart p position => Sys2Proof.Machine.execRejectStart p position s
  | .rejectEnd p position => Sys2Proof.Machine.execRejectEnd p position s
  | .guardCountReached p position => Sys2Proof.Machine.execGuardCountReached p position s
  | .loadDone n arm => Sys2Proof.Machine.execLoadDone n arm s
  | .holdKey n => Sys2Proof.Machine.execHoldKey n s
  | .spliceKey n => Sys2Proof.Machine.execSpliceKey n s
  | .webBreak n => Sys2Proof.Machine.execWebBreak n s
  | .keyInputChange n k level => Sys2Proof.Machine.execKeyInputChange n k level s
  | .filterSettlesInactive n k => Sys2Proof.Machine.execFilterSettlesInactive n k s

end Sys2Proof.Machine
end

