-- ==== Sys2Proof/Machine/Step.lean ====
section
/-! DEFINITION. One step of the machine: the command at the front of the queue of waiting commands. -/

namespace Sys2Proof.Machine

/-- One step: the command at the front of the queue is taken, with the rest of the queue left. On an empty queue the
controller idles (log 10). -/
def step (s : State) : Host.Outcome State Fault Refusal :=
  match s.pending with
  | [] => .next s
  | i :: rest => exec i (s.withPending rest)

/-- The command that a word of the opcode table spells, put at the front of the queue. No row gives bits, so no word
spells one and the state is as it was (log 11). -/
def State.withFetchWord (s : State) (nbits w : Nat) : State :=
  match decodeTableWord nbits w with
  | none => s
  | some i => s.withPending (i :: s.pending)

end Sys2Proof.Machine
end

