-- ==== Sys2Proof/Safety.lean ====
section
/-! DEFINITION. What every reachable state of the controller keeps: the invariants that the rules state of its blocks. -/

namespace Sys2Proof.Safety

open Sys2Proof.Machine

/-- SRQ stands at the level of its condition (R164). -/
def SrqFollows (s : State) : Prop :=
  s.notices.srq = s.notices.srqCondition

/-- REJECT of each path is asserted exactly while a record of its queue is REJECTING (R143). -/
def RejectFollows (s : State) : Prop :=
  ∀ p, (s.transit p).reject = (s.transit p).queue.any (·.rejecting)

/-- Each arbiter's path-clear state is what its path's transit queue makes it (R120). -/
def PathClearFollows (s : State) : Prop :=
  ∀ p, (s.arbiter p).pathClear = queueClear (s.transit p).queue

/-- No arbiter owes a decision between steps (R121, log 3). -/
def NoDecisionOwed (s : State) : Prop :=
  ∀ p, (s.arbiter p).decisionDue = false

/-- Every order queue holds at most 2 handles (R26). -/
def OrderQueuesBounded (s : State) : Prop :=
  ∀ n, (s.stand n).queue.length ≤ Config.queueCapacity

/-- Every transit queue holds at most 4 records (R134). -/
def TransitQueuesBounded (s : State) : Prop :=
  ∀ p, (s.transit p).queue.length ≤ Config.transitCapacity

/-- The path settings of every path lie in their ranges (R157, Figure 35). -/
def SettingsInRange (s : State) : Prop :=
  ∀ p, settingsInRange (s.setting p) = true

/-- A profile whose fields lie in their ranges and whose three diameters stand in order (R152, steps 1 and 2). -/
def ProfileSound (w : Profile) : Prop :=
  (∀ k ∈ profileFieldNumbers, profileFieldInRange k (profileField w k) = true) ∧
    w.criticalDiameter < w.spliceDiameter ∧ w.spliceDiameter < w.warnDiameter

/-- Every working profile is sound, and its gate distance is at least the reject lead of its path (R152, R157). -/
def WorkingProfilesSound (s : State) : Prop :=
  ∀ n, ProfileSound (s.working n) ∧ (s.setting (s.pathOf n)).rejectLead ≤ (s.working n).gateDistance

/-- No two live records carry the same tag (R2). -/
def TagsDistinct (s : State) : Prop :=
  ∀ h k r q, s.reel h = some r → s.reel k = some q → r.tag = q.tag → h = k

/-- No two live records have the same place (R6). -/
def PlacesDistinct (s : State) : Prop :=
  ∀ h k r q place, s.reel h = some r → s.reel k = some q → r.place = some place → q.place = some place → h = k

/-- How many commands the port has in progress: those handed and not yet taken whose result is still wanted, and the one
whose answer awaits completion (R174, R175, R180). -/
def commandsInProgress (q : Port) : Nat :=
  (q.handed.filter fun h => !h.discarded).length + (if q.answer.isSome then 1 else 0)

/-- One command is in progress while BUSY is set, and none while it is clear (section 10.1, R172). -/
def OneCommandInProgress (s : State) : Prop :=
  commandsInProgress s.port = if s.port.busy then 1 else 0

/-- No arbiter rests with its permit FREE, its path clear and a request waiting (R121). -/
def NoArbiterIdles (s : State) : Prop :=
  ∀ p, (s.arbiter p).permit = .free → (s.arbiter p).pathClear = true → ∀ n : StandNo, (s.arbiter p).requests[n] = none

end Sys2Proof.Safety
end

