-- ==== Sys2Proof/Certificates/Slice0/Obligations.lean ====
section
/-! DEFINITION. The statements for the provers. They are about `exec` and `step`; what a row answers is written with the
updates of one block (Machine/Ops.lean) and with `State.settleDecisions` for the arbiters' decisions that follow it, which
have statements of their own. A command's row is its code write or its taking by the owning block (log 1, 2); a reply that a
rule gives in words is laid out by R178 (log 17). -/

namespace Sys2Proof.Statements

open Sys2Proof.Machine

/-- The row of a command. -/
def rowOf : Command → CmdEvent → Instr
  | .enterReel => .enterReel
  | .findReel => .findReel
  | .fetchReel => .fetchReel
  | .amendReel => .amendReel
  | .mountReel => .mountReel
  | .prepareReel => .prepareReel
  | .unmountReel => .unmountReel
  | .retireReel => .retireReel
  | .reorder => .reorder
  | .standEnable => .standEnable
  | .standDisable => .standDisable
  | .standReset => .standReset
  | .threadReel => .threadReel
  | .hold => .hold
  | .release => .release
  | .spliceSoon => .spliceSoon
  | .spliceNow => .spliceNow
  | .output => .output
  | .fetchStand => .fetchStand
  | .profileWrite => .profileWrite
  | .profileRead => .profileRead
  | .profileChange => .profileChange
  | .pathSet => .pathSet
  | .fetchPath => .fetchPath
  | .acceptNotice => .acceptNotice
  | .endNotice => .endNotice
  | .deviceReset => .deviceReset

/-- The code of an arm in a parameter (R178). -/
def armNumber : Arm → Nat
  | .a => 0
  | .b => 1
  | .c => 2

/-- READY is set, and `position` of the commands handed and not yet taken is this command with these parameters, its result
still wanted and no older command waiting for its block: its owning block may take it (R175, R180). -/
structure Offered (c : Command) (ps : Buffer) (position : Nat) (s : State) : Prop where
  ready : s.phase = .ready
  handed : s.port.handed[position]? = some ⟨c, ps, false⟩
  first : mayTake s.port.handed position ⟨c, ps, false⟩ = true

/-- The state with the command at `position` no longer waiting to be taken. -/
def taken (s : State) (position : Nat) : State :=
  s.modPort fun q => { q with handed := q.handed.eraseIdx position }

/-- The state that the owning block has left, `u`, after the decisions it prompts (R121), with its answer at the port. -/
def answered (u : State) (r : Result) (reply : List Byte) : State :=
  u.settleDecisions.modPort fun q => { q with answer := some ⟨r, reply⟩ }

/-- The state in which the command at `position` has been taken and answered, and nothing else has changed. -/
def replied (s : State) (position : Nat) (r : Result) (reply : List Byte) : State :=
  s.modPort fun q => { q with handed := q.handed.eraseIdx position, answer := some ⟨r, reply⟩ }

/-- The state with the settling timer of a filtered input expired at a level (R184). -/
def settledAt (s : State) (n : StandNo) (k : KeyInput) (level : Bool) : State :=
  s.setFilter n k { filterOf (s.standInputs n) k with settled := level, timer := false }

/-- The settling timer of a filtered input runs and the input stands at a level, while READY is set (R184). -/
structure Settling (n : StandNo) (k : KeyInput) (level : Bool) (s : State) : Prop where
  ready : s.phase = .ready
  timer : (filterOf (s.standInputs n) k).timer = true
  input : (filterOf (s.standInputs n) k).input = level

/-- Every block at its value after device reset, whatever the phase and the queue (R181), the data lines at 00h among them (log 14);
the settling timers are stopped (R184), no arm has had a mark since (R185), and each input stands at the level that the field held
it at before, in `s` (log 19). -/
structure AtResetValues (s u : State) : Prop where
  blocks : { State.reset with phase := u.phase, inputs := u.inputs, pending := u.pending } = u
  timers : ∀ n k, (filterOf (u.standInputs n) k).timer = false
  marks : ∀ n arm, markTaken (u.standInputs n) arm = false
  levels : ∀ n k, (filterOf (u.standInputs n) k).input = (filterOf (s.standInputs n) k).input

/-- The row of a target. -/
def rowOfTarget : Target → Instr
  | .runMarkDeadline n => .runMarkDeadline n
  | .reckoningStep n => .reckoningStep n
  | .freshReelMarkDeadline n => .freshReelMarkDeadline n
  | .paste n => .paste n
  | .cut n => .cut n
  | .settle n => .settleTargetReached n
  | .rejectStart p position => .rejectStart p position
  | .rejectEnd p position => .rejectEnd p position
  | .guardCount p position => .guardCountReached p position

/-- The state that a row leaves. -/
def leftBy (i : Instr) (s : State) : State :=
  match exec i s with
  | .next u => u
  | .fault _ => s
  | .refused _ => s

/-- The rows of field inputs, timers and targets, the movement of an input apart. -/
def fieldRow : Instr → Bool
  | .webPulse _ _ | .motionTimerExpiry _ _ | .runMark _ _ _ | .runMarkDeadline _ | .reckoningStep _ => true
  | .freshReelMark _ _ _ | .freshReelMarkDeadline _ | .runUpTimerExpiry _ | .backoffTimerExpiry _ => true
  | .paste _ | .cut _ | .settleTargetReached _ | .brakeTimerExpiry _ | .pulseEnd _ _ => true
  | .rejectStart _ _ | .rejectEnd _ _ | .guardCountReached _ _ => true
  | .loadDone _ _ | .holdKey _ | .spliceKey _ | .webBreak _ | .filterSettlesInactive _ _ => true
  | _ => false

end Sys2Proof.Statements

open Sys2Proof Sys2Proof.Machine Sys2Proof.Safety Sys2Proof.Statements

/-! ### The machine -/

/-- A step of a state with a command at the front of its queue is that command's `exec` on the state with the queue's
rest. -/
def Obligations.StepTakesTheFrontCommand : Prop :=
  ∀ (c : Instr) (rest : List Instr) (s : State), s.pending = c :: rest → step s = exec c (s.withPending rest)

/-- The values after device reset that the spec gives (R1, R26, R39, R42, R53, R58, R59, R64, R94, R106, R132, R135, R148,
R149, R156, R157, R161, R163, R164, R166, R173, R181, R184, R186). The input levels and the data lines are the model's
choice (log 14, 19) and are not stated. -/
def Obligations.ResetGivesTheSpecsValues : Prop :=
  let s := State.reset
  (s.phase = .initialising ∧ (∀ h, s.reel h = none)) ∧
    (∀ n, (s.stand n).state = .off ∧ (s.stand n).running = none ∧ (s.stand n).queue = [] ∧ (s.stand n).warn = false ∧
      (s.stand n).splice = false ∧ (s.stand n).critical = false ∧ (s.stand n).level = none ∧ (s.stand n).hold = false ∧
      (s.stand n).lock = false ∧ (s.stand n).stall = false ∧ (s.stand n).webBroken = false ∧
      (s.stand n).runUpTimer = none ∧ (s.stand n).backoffTimer = none ∧ (s.stand n).brakeTimer = none ∧
      (s.stand n).deferredReset = false ∧ (s.stand n).deferredDisable = false ∧ (s.stand n).deferredProfile = false ∧
      (s.stand n).context = none) ∧
    (∀ n, (s.watcher n).state = .idle ∧ (s.watcher n).arm = none ∧ (s.watcher n).path = none ∧
      (s.watcher n).reference = 0 ∧ (s.watcher n).pLast = 0 ∧ (s.watcher n).deadline = none ∧
      (s.watcher n).reckoningCount = none) ∧
    (∀ p, (s.web p).counter = 0 ∧ (s.web p).moving = false ∧ (s.web p).motionTimer = none) ∧
    (∀ p, (s.arbiter p).permit = .free ∧ (s.arbiter p).pathClear = true ∧
      ∀ n : StandNo, (s.arbiter p).requests[n] = none ∧ (s.arbiter p).marks[n] = ⟨false, false, false⟩) ∧
    (∀ p, (s.transit p).queue = [] ∧ (s.transit p).spliceCounter = 0 ∧ (s.transit p).reject = false) ∧
    (∀ n, (s.profile n).working = ⟨0, 0, 0, 300, 200, 150, 0, 150, 600, 60000, 300, 5000, 10, 50, 10, 3, 40⟩ ∧
      (s.profile n).staged = (s.profile n).working ∧ (s.profile n).outcome = .none ∧ (s.profile n).failureField = 0) ∧
    (∀ p, s.setting p = ⟨20000, 1000, 8000, 500⟩) ∧
    (s.notices.opened = none ∧ s.notices.srq = false ∧ s.notices.reelEnable = false ∧ s.notices.spliceEnable = false ∧
      s.notices.lineEnable = false ∧ s.notices.reelPointer = 15 ∧ s.notices.splicePointer = 15 ∧
      s.notices.linePointer = 15 ∧ (∀ c, s.notices.anyPending c = false)) ∧
    (s.port.command = 0 ∧ s.port.result = 0 ∧ s.port.busy = false ∧ s.port.overrun = false ∧
      (∀ i : Fin 24, s.port.buffer[i] = 0) ∧ s.port.index = 0 ∧ s.port.handed = [] ∧ s.port.answer = none) ∧
    (∀ n, (s.output n).drive = false ∧ (s.output n).brake = false ∧ (s.output n).paste = none ∧
      (s.output n).knife = none ∧ (s.output n).driveMaintained = false ∧ (s.output n).brakeMaintained = false) ∧
    (∀ n k, (filterOf (s.standInputs n) k).timer = false) ∧
    (∀ i : Fin 8, s.readRegister i = 0)

/-- Every invariant of Safety.lean holds right after device reset. -/
def Obligations.InvariantsHoldAtReset : Prop :=
  SrqFollows State.reset ∧ RejectFollows State.reset ∧ PathClearFollows State.reset ∧ NoDecisionOwed State.reset ∧
    OrderQueuesBounded State.reset ∧ TransitQueuesBounded State.reset ∧ SettingsInRange State.reset ∧
    WorkingProfilesSound State.reset ∧ TagsDistinct State.reset ∧ PlacesDistinct State.reset ∧
    OneCommandInProgress State.reset ∧ NoArbiterIdles State.reset

/-- Every step keeps SRQ at the level of its condition (R164). -/
def Obligations.SrqFollowsItsCondition : Prop :=
  ∀ s s' : State, SrqFollows s → step s = .next s' → SrqFollows s'

/-- Every step keeps the REJECT output, the path-clear state and the length of every transit queue as R143, R120 and R134
give them. -/
def Obligations.TransitQueuesAreFollowed : Prop :=
  ∀ s s' : State, RejectFollows s ∧ PathClearFollows s ∧ TransitQueuesBounded s → step s = .next s' →
    RejectFollows s' ∧ PathClearFollows s' ∧ TransitQueuesBounded s'

/-- Every step keeps every order queue at 2 handles or fewer (R26). -/
def Obligations.OrderQueuesHoldAtMostTwo : Prop :=
  ∀ s s' : State, OrderQueuesBounded s → step s = .next s' → OrderQueuesBounded s'

/-- Every step keeps the path settings in their ranges, the working profiles in theirs, and every working gate distance at
or above the reject lead of its path (R149, R152, R157). -/
def Obligations.WorkingProfilesStaySound : Prop :=
  ∀ s s' : State, SettingsInRange s ∧ WorkingProfilesSound s → step s = .next s' →
    SettingsInRange s' ∧ WorkingProfilesSound s'

/-- Every step keeps the tags of the live records distinct, and their places (R2, R6). -/
def Obligations.TagsAndPlacesStayDistinct : Prop :=
  ∀ s s' : State, TagsDistinct s ∧ PlacesDistinct s → step s = .next s' → TagsDistinct s' ∧ PlacesDistinct s'

/-- Every step leaves no decision owed, and no arbiter resting with its permit FREE, its path clear and a request waiting
(R121). -/
def Obligations.NoArbiterRestsWithAGrantToMake : Prop :=
  ∀ s s' : State, NoDecisionOwed s ∧ PathClearFollows s ∧ NoArbiterIdles s → step s = .next s' →
    NoDecisionOwed s' ∧ PathClearFollows s' ∧ NoArbiterIdles s'

/-- Every step keeps one command in progress while BUSY is set, and none while it is clear (section 10.1). -/
def Obligations.OneCommandIsInProgressWhileBusy : Prop :=
  ∀ s s' : State, OneCommandInProgress s → step s = .next s' → OneCommandInProgress s'

/-! ### The Press Port -/

/-- The code write on a ready port that is not busy (R174). Of each of the 26 commands that a block owns: the command register
holds the code, BUSY is set, the result register reads 00h, OVERRUN is cleared, and the command is handed on with a copy of the
buffer; nothing else changes. In the form `atOnce` the owning block takes it before any other event: the row is the code write
followed by the taking (log 1). Of a code that names no command: it completes at once with BAD-COMMAND and an empty reply, and
nothing else changes (R177). -/
def Obligations.CodeWriteTakesTheCommand : Prop :=
  ∀ s : State, s.phase = .ready → s.port.busy = false →
    (∀ c : Command, c ≠ .deviceReset →
      let u := s.modPort fun q =>
        { q with
          command := c.code
          result := 0
          busy := true
          overrun := false
          handed := q.handed ++ [⟨c, q.buffer, false⟩]
          answer := none }
      exec (rowOf c .write) s = .next u ∧ exec (rowOf c .atOnce) s = exec (rowOf c (.take s.port.handed.length)) u) ∧
    ∀ code : Byte, code ≠ 0 → (∀ c : Command, c.code ≠ code) →
      exec (.undefinedCommandCode code) s =
        .next (s.modPort fun q =>
          { q with
            command := 0
            result := 0x10
            busy := false
            overrun := false
            buffer := Vector.replicate 24 0
            index := 0
            answer := none })

/-- While BUSY is set, a code write, a write of 03h and a write of 04h set OVERRUN and change nothing else (R176). For the
code 00h this is the model's reading (log 13), and is not stated. -/
def Obligations.BusyPortIgnoresWrites : Prop :=
  ∀ s : State, s.phase = .ready → s.port.busy = true →
    let u := s.modPort fun q => { q with overrun := true }
    (∀ c : Command, exec (rowOf c .write) s = .next u ∧ exec (rowOf c .atOnce) s = .next u) ∧
      (∀ code : Byte, code ≠ 0 → exec (.undefinedCommandCode code) s = .next u) ∧
      (∀ value : Byte, exec (.bufferWrite value) s = .next u) ∧ ∀ value : Byte, exec (.indexWrite value) s = .next u

/-- The completion of a command whose owning block has answered: the buffer holds the reply from position 0 and 00h after it,
the index is 0, the result register holds the result, the command register is 00h and BUSY is clear, and nothing else changes,
OVERRUN not either (R177, R176). -/
def Obligations.CompletionWritesTheAnswer : Prop :=
  ∀ (s : State) (r : Result) (reply : List Byte), s.port.answer = some ⟨r, reply⟩ →
    exec .commandCompletion s =
      .next (s.modPort fun q =>
        { q with
          command := 0
          result := resultCode r
          busy := false
          buffer := Vector.ofFn fun i => (reply[i.val]?).getD 0
          index := 0
          answer := none })

/-- The accesses of the parameter buffer on a ready port: a read of 03h carries the byte at the index out, BUSY set or not; a
write of 03h while BUSY is clear stores it; after either the index advances by 1, from 23 to 0. A write of 04h while BUSY is
clear sets the index to a value of 0 to 23, and a larger value changes nothing (R173, R176). While READY is clear a read of 03h
carries 00h out (R172), and the index keeps its place (log 12). -/
def Obligations.BufferAccessMovesTheIndex : Prop :=
  (∀ s : State, s.phase = .ready →
    (∃ u, exec .bufferRead s = .next u ∧ u.port.dataLines = s.port.buffer[s.port.index] ∧
        u.port.index.val = (if s.port.index.val = 23 then 0 else s.port.index.val + 1) ∧
        u = s.modPort fun q => { q with dataLines := u.port.dataLines, index := u.port.index }) ∧
      (s.port.busy = false →
        (∀ value : Byte, ∃ u, exec (.bufferWrite value) s = .next u ∧
            (∀ i : Fin 24, u.port.buffer[i] = if i = s.port.index then value else s.port.buffer[i]) ∧
            u.port.index.val = (if s.port.index.val = 23 then 0 else s.port.index.val + 1) ∧
            u = s.modPort fun q => { q with buffer := u.port.buffer, index := u.port.index }) ∧
          (∀ i : Fin 24, exec (.indexWrite (BitVec.ofNat 8 i.val)) s = .next (s.modPort fun q => { q with index := i })) ∧
          ∀ value : Byte, 24 ≤ value.toNat → exec (.indexWrite value) s = .next s)) ∧
  ∀ s : State, s.phase ≠ .ready → exec .bufferRead s = .next (s.modPort fun q => { q with dataLines := 0 })

/-- A write of the class enables on a ready port, BUSY set or not, replaces the three enables by bits 0 to 2 of the value and
judges SRQ again; nothing else changes (R163). SRQ's condition: no notice is open, and some class whose enable is set has a
pending notice of some source (R164). -/
def Obligations.EnablesAndPendingNoticesGiveSrq : Prop :=
  (∀ (value : Byte) (s : State), s.phase = .ready →
    exec (.classEnableWrite value) s =
      .next (s.modNotices fun u =>
        let e : NoticeUnit :=
          { u with
            reelEnable := value.getLsbD 0
            spliceEnable := value.getLsbD 1
            lineEnable := value.getLsbD 2 }
        { e with srq := e.srqCondition })) ∧
  ∀ u : NoticeUnit, u.srqCondition = true ↔
    u.opened = none ∧
      ((u.reelEnable = true ∧ ∃ n : StandNo, u.reel[n] ≠ none) ∨ (u.spliceEnable = true ∧ ∃ n : StandNo, u.splice[n] ≠ none) ∨
        u.lineEnable = true ∧ ∃ src : Source, u.line[src] ≠ none)

/-- PORT RESET on a ready port: the registers and the buffer are cleared, every command in progress loses its result and reply
and is still waiting to be taken, the open notice is discarded and SRQ judged again, and nothing else changes: no enable, no
pending notice, no record, queue, stand, permit, transit record or profile (R180, R170). A command so discarded is still taken
in full: its taking leaves what the taking of the same command with its result wanted leaves, apart from the answer. -/
def Obligations.PortResetClearsThePort : Prop :=
  (∀ (value : Byte) (s : State), value.getLsbD 0 = true → s.phase = .ready →
    exec (.portReset value) s =
      .next ((s.modPort fun q =>
          { q with
            command := 0
            result := 0
            busy := false
            overrun := false
            buffer := Vector.replicate 24 0
            index := 0
            handed := q.handed.map fun h => { h with discarded := true }
            answer := none }).modNotices fun u =>
        let closed : NoticeUnit := { u with opened := none }
        { closed with srq := closed.srqCondition })) ∧
  ∀ (c : Command) (ps : Buffer) (position : Nat) (s : State), c ≠ .deviceReset → s.phase = .ready →
    s.port.handed[position]? = some ⟨c, ps, true⟩ → mayTake s.port.handed position ⟨c, ps, true⟩ = true →
    let wanted := s.modPort fun q => { q with handed := q.handed.set position ⟨c, ps, false⟩ }
    ∃ u r, exec (rowOf c (.take position)) wanted = .next (u.modPort fun q => { q with answer := some r }) ∧
      exec (rowOf c (.take position)) s = .next u

/-- Writes without an action: on a ready port, BUSY set or not, of 01h, 02h and 05h and of 07h with bit 0 clear; on a ready port that
is not busy, of the code 00h; and while READY is clear, every write of every register and every code write (R172, R174). -/
def Obligations.IgnoredWritesChangeNothing : Prop :=
  ∀ s : State,
    (∀ value : Byte, s.phase = .ready →
        (∀ offset : Fin 8, offset = 1 ∨ offset = 2 ∨ offset = 5 ∨ offset = 7 ∧ value.getLsbD 0 = false →
          exec (.ignoredRegisterWrite offset value) s = .next s) ∧
        (s.port.busy = false → exec (.ignoredRegisterWrite 0 0) s = .next s)) ∧
      (s.phase ≠ .ready →
        (∀ (offset : Fin 8) (value : Byte), exec (.ignoredRegisterWrite offset value) s = .next s) ∧
          (∀ c : Command, exec (rowOf c .write) s = .next s ∧ exec (rowOf c .atOnce) s = .next s) ∧
          ∀ value : Byte, exec (.undefinedCommandCode value) s = .next s ∧ exec (.bufferWrite value) s = .next s ∧
            exec (.indexWrite value) s = .next s ∧ exec (.classEnableWrite value) s = .next s ∧
            exec (.portReset value) s = .next s)

/-- What the registers read on a ready port (Figures 40 and 41, R165, R172), and that every register but the status reads 00h
while READY is clear, the identification too (R181). The command codes are those of Figure 42, and no others; the codes of the
results are those of Figure 43. -/
def Obligations.RegistersAndCodesAreThoseOfTheFigures : Prop :=
  (∀ s : State,
    (s.phase = .ready →
      s.readRegister 0 = s.port.command ∧ s.readRegister 1 = s.port.result ∧
        s.readRegister 3 = s.port.buffer[s.port.index] ∧ (s.readRegister 4).toNat = s.port.index.val ∧
        s.readRegister 7 = 0x2A ∧
        (∀ i, (s.readRegister 2).getLsbD i =
          ((i = 0 && s.port.busy) || i = 1 || (i = 2 && s.port.overrun) || (i = 3 && s.notices.srq) ||
            (i = 4 && s.notices.opened.isSome))) ∧
        (∀ i, (s.readRegister 5).getLsbD i =
          ((i = 0 && s.notices.anyPending .reel) || (i = 1 && s.notices.anyPending .splice) ||
            (i = 2 && s.notices.anyPending .line) || (i = 3 && s.notices.opened.isSome))) ∧
        ∀ i, (s.readRegister 6).getLsbD i =
          ((i = 0 && s.notices.reelEnable) || (i = 1 && s.notices.spliceEnable) || (i = 2 && s.notices.lineEnable))) ∧
      (s.phase ≠ .ready → ∀ offset : Fin 8, offset ≠ 2 → s.readRegister offset = 0)) ∧
  (∀ code c, Command.ofCode code = some c ↔ c.code = code) ∧
    [Command.enterReel, .findReel, .fetchReel, .amendReel, .mountReel, .prepareReel, .unmountReel, .retireReel,
        .reorder].map Command.code = [0x10, 0x11, 0x12, 0x13, 0x14, 0x15, 0x16, 0x17, 0x18] ∧
    [Command.standEnable, .standDisable, .standReset, .threadReel, .hold, .release, .spliceSoon, .spliceNow, .output,
        .fetchStand].map Command.code = [0x20, 0x21, 0x22, 0x23, 0x24, 0x25, 0x26, 0x27, 0x28, 0x29] ∧
    [Command.profileWrite, .profileRead, .profileChange, .pathSet, .fetchPath].map Command.code =
        [0x30, 0x31, 0x32, 0x33, 0x34] ∧
    [Command.acceptNotice, .endNotice, .deviceReset].map Command.code = [0x40, 0x41, 0x50] ∧
    [Result.done, .deferred, .badCommand, .badValue, .badHandle, .badStand].map resultCode =
        [0x01, 0x02, 0x10, 0x11, 0x12, 0x13] ∧
    [Result.tableFull, .duplicateTag, .notFound, .wrongState, .inSplice, .armOccupied, .queueFull, .noCandidate,
        .pathMoving].map resultCode = [0x20, 0x21, 0x22, 0x23, 0x24, 0x25, 0x26, 0x27, 0x28] ∧
    [Result.noNotice, .noticeOpen, .noneOpen, .badProfile].map resultCode = [0x30, 0x31, 0x32, 0x33]

/-! ### Device reset -/

/-- The two device resets leave every block at its value after device reset, whatever the controller was doing: the RESET line
holds initialisation off, DEVICE RESET, taken on a ready port that is not busy, starts it at once. The release of the line
starts it. Its completion sets READY and gives each filter its input's level as settled level (R181, R184), and after it too no arm
has had a mark, so that its next edge is one (R185).
Three points are the model's choice: the data lines stand at 00h after the reset (log 14), each input keeps the level it stood at
(log 19), and the queue of waiting commands outlives the reset (log 25). -/
def Obligations.DeviceResetClearsTheController : Prop :=
  ∀ s : State,
    (∃ u, exec .resetLineAsserted s = .next u ∧ u.phase = .inReset ∧ AtResetValues s u ∧ u.pending = s.pending) ∧
      (s.phase = .ready → s.port.busy = false → ∃ u, exec (.deviceReset .write) s = .next u ∧
        exec (.deviceReset .atOnce) s = .next u ∧ u.phase = .initialising ∧ AtResetValues s u ∧ u.pending = s.pending) ∧
      (s.phase = .inReset → exec .resetLineReleased s = .next { s with phase := .initialising }) ∧
      (s.phase = .initialising → ∃ u, exec .initialisationComplete s = .next u ∧ u.phase = .ready ∧
        (∀ n k, filterOf (u.standInputs n) k =
          ⟨(filterOf (s.standInputs n) k).input, (filterOf (s.standInputs n) k).input, false⟩) ∧
        (∀ n arm, markTaken (u.standInputs n) arm = false) ∧
        { u with phase := s.phase, inputs := s.inputs } = s)

/-- While READY is clear, no event of the field and no timer or target changes anything (R181). An input that moves is the
field's own: the level it stands at follows it, and no settling timer starts (log 19). While READY is set, a change away from the
settled level starts the settling timer, a change back stops it, and a settling to inactive hands nothing on (R184).
The decisions that a row prompts are made once, after it (log 3). -/
def Obligations.InputsAreFilteredAndIgnoredBeforeReady : Prop :=
  (∀ (i : Instr) (s : State), s.phase ≠ .ready → fieldRow i = true → exec i s = .next s) ∧
  (∀ (n : StandNo) (k : KeyInput) (level : Bool) (s : State),
    let f := filterOf (s.standInputs n) k
    let run := exec (.keyInputChange n k level) s
    (f.input = level → run = .next s) ∧
      (s.phase ≠ .ready → f.input ≠ level → run = .next (s.setFilter n k { f with input := level, timer := false })) ∧
      (s.phase = .ready → f.input ≠ level → f.settled ≠ level →
        run = .next (s.setFilter n k { f with input := level, timer := true })) ∧
      (s.phase = .ready → f.input ≠ level → f.settled = level →
        run = .next (s.setFilter n k { f with input := level, timer := false }))) ∧
  ∀ (n : StandNo) (k : KeyInput) (s : State), Settling n k false s →
    exec (.filterSettlesInactive n k) s = .next (settledAt s n k false).settleDecisions

/-! ### Every row -/

/-- Every row takes a next state in every state, for the spec stops the machine nowhere; and it leaves the queue of waiting
commands as it was. A row whose event does not arise changes nothing (log 6): of a target that is not pending or not reached (R40), of
a timer that does not run, or runs for another state (R115), of a pulse that has ended, of a press, a break or a settling without its
settling timer or with its input at the other level (R184), of a command that is not handed or may not be taken yet (R175, R180), of
a completion without an answer, and of a release or an end of initialisation in another phase (R181). -/
def Obligations.EveryRowTakesANextState : Prop :=
  (∀ (i : Instr) (s : State), ∃ u, exec i s = .next u ∧ u.pending = s.pending) ∧
  (∀ s : State, NoDecisionOwed s →
    (∀ t : Target, (∀ c, s.pendingTarget t = some c → reached (s.web (s.targetPath t)).counter c = false) →
        exec (rowOfTarget t) s = .next s) ∧
      (∀ (p : PathNo) (order : List StandNo), (s.web p).motionTimer = none → exec (.motionTimerExpiry p order) s = .next s) ∧
      ∀ n : StandNo,
        (beforePaste (s.stand n).state = false ∨ (s.stand n).runUpTimer = none → exec (.runUpTimerExpiry n) s = .next s) ∧
          ((s.stand n).state ≠ .backoff ∨ (s.stand n).backoffTimer = none → exec (.backoffTimerExpiry n) s = .next s) ∧
          ((s.stand n).brakeTimer = none → exec (.brakeTimerExpiry n) s = .next s) ∧
          ((s.output n).paste = none → exec (.pulseEnd n .paste) s = .next s) ∧
          ((s.output n).knife = none → exec (.pulseEnd n .knife) s = .next s) ∧
          (∀ k : KeyInput, (filterOf (s.standInputs n) k).timer = false ∨ (filterOf (s.standInputs n) k).input = true →
            exec (.filterSettlesInactive n k) s = .next s) ∧
          ∀ k : KeyInput, (filterOf (s.standInputs n) k).timer = false ∨ (filterOf (s.standInputs n) k).input = false →
            exec (match k with
              | .loadDone arm => .loadDone n arm | .hold => .holdKey n | .splice => .spliceKey n | .webBreak => .webBreak n) s =
              .next s) ∧
  ∀ s : State,
    (∀ (c : Command) (position : Nat), s.phase ≠ .ready ∨ (∀ h, s.port.handed[position]? = some h →
        h.command ≠ c ∨ mayTake s.port.handed position h = false) → exec (rowOf c (.take position)) s = .next s) ∧
      (s.port.answer = none → exec .commandCompletion s = .next s) ∧
      (s.phase ≠ .inReset → exec .resetLineReleased s = .next s) ∧
      (s.phase ≠ .initialising → exec .initialisationComplete s = .next s)

/-- A path counter is changed only by a web pulse of its path, which adds 1 (R39), and path settings only by a PATH SET, to
settings in their ranges (R157); a device reset sets both to their values after it. -/
def Obligations.OnlyPulsesCountAndOnlyPathSetSets : Prop :=
  ∀ (i : Instr) (s s' : State) (p : PathNo), i.wellFormed (decide (s.phase = .ready)) = true → exec i s = .next s' →
    let reset := s'.phase ≠ .ready ∧ (i = .resetLineAsserted ∨ ∃ e, i = .deviceReset e)
    ((s'.web p).counter ≠ (s.web p).counter →
        (s'.web p).counter = (s.web p).counter + 1 ∧ (∃ since, i = .webPulse p since) ∨
          (s'.web p).counter = 0 ∧ reset) ∧
      (s'.setting p ≠ s.setting p →
        (∃ e, i = .pathSet e) ∧ settingsInRange (s'.setting p) = true ∨ s'.setting p = ⟨20000, 1000, 8000, 500⟩ ∧ reset)

/-- While a reel is RUNNING, its recorded diameter never increases, whatever the step (R45). -/
def Obligations.RunningDiameterNeverIncreases : Prop :=
  ∀ (s s' : State) (h : Handle) (r r' : Reel), step s = .next s' → s.reel h = some r → r.state = .running →
    s'.reel h = some r' → r'.state = .running → r'.diameter ≤ r.diameter

/-! ### Numbers -/

/-- The arithmetic of the rules. A target is reached when the counter minus it, modulo 2^32, is less than 2^31 (R40): within
2^31 counts after it, over the wrap of the counter too, and not otherwise. A reel's length (R4), circumference (R44), the
diameter of a sample (R45) and the diameter that dead reckoning derives from a length (R48), over the ranges of Figure 6. The
speed tolerance (R75). The fire point lies below the circumference and is congruent to the pattern offset less the paste lead
(R77). -/
def Obligations.FormulasAreTheSpecs : Prop :=
  (∀ (target : Count) (distance : Nat), distance < 4294967296 →
      reached (target + BitVec.ofNat 32 distance) target = decide (distance < 2147483648)) ∧
    (∀ diameter core caliper : Nat, 0 < caliper →
      lengthOf diameter core caliper = min (31416 * (diameter ^ 2 - core ^ 2) / (40000 * caliper)) 65535) ∧
    (∀ diameter : Nat, circumferenceOf diameter = diameter * 31416 / 10000) ∧
    (∀ pulses : Nat, diameterOf pulses = pulses * 10000 / 31416) ∧
    (∀ core caliper length : Nat, core ≤ 160 → caliper ≤ 150 → length ≤ 65535 →
      reckonedDiameter core caliper length = Nat.sqrt (core ^ 2 + 40000 * caliper * length / 31416)) ∧
    (∀ pulses circumference perMille : Nat, inTolerance pulses circumference perMille =
      decide (((pulses : Int) - circumference).natAbs ≤ circumference * perMille / 1000)) ∧
    ∀ circumference offset lead : Nat, 0 < circumference →
      (firePointOf circumference offset lead : Int) = ((offset : Int) - lead) % circumference

/-- Numbers in the buffer stand least significant byte first, both ways (R178). A number written into a reply has as many bytes as it
is given, and byte `k` of it, counted from its position, is the number over 256 to the `k`, modulo 256. A number read as a parameter
is the sum of its bytes, the byte `k` positions on times 256 to the `k`; a byte is read as the buffer holds it. A number so written is
the number so read, for every value its bytes hold. -/
def Obligations.NumbersRoundTripThroughTheBuffer : Prop :=
  (∀ (before after : List Byte) (bytes value : Nat), before.length + bytes ≤ 24 →
    (leBytes bytes value).length = bytes ∧
      (∀ k, k < bytes → byteAt (bufferOfReply (before ++ leBytes bytes value ++ after)) (before.length + k) = value / 256 ^ k % 256) ∧
      (value < 256 ^ bytes → valueAt (bufferOfReply (before ++ leBytes bytes value ++ after)) before.length bytes = value)) ∧
  ∀ ps : Buffer,
    (∀ (position bytes : Nat),
      valueAt ps position bytes = ((List.range bytes).map fun k => byteAt ps (position + k) * 256 ^ k).sum) ∧
      ∀ i : Fin 24, byteAt ps i.val = ps[i].toNat

/-! ### Images -/

/-- The record image (Figure 44) and the notice image (Figure 50), read back from the buffer, for a record whose numbers fit
their bytes. -/
def Obligations.ReelAndNoticeImagesHaveTheirLayout : Prop :=
  (∀ (h : Handle) (r : Reel), r.tag < 4294967296 → r.grade < 256 → r.width < 256 → r.core < 256 → r.diameter < 65536 →
    r.caliper < 256 → r.length < 65536 → (∀ o, r.offset = some o → o < 65536) →
    let b := bufferOfReply (reelImage h r)
    (reelImage h r).length = 21 ∧ byteAt b 0 = h.val ∧ valueAt b 1 4 = r.tag ∧ byteAt b 5 = r.grade ∧ byteAt b 6 = r.width ∧
      byteAt b 7 = r.core ∧ valueAt b 8 2 = r.diameter ∧ byteAt b 10 = r.caliper ∧ valueAt b 11 2 = r.length ∧
      valueAt b 13 2 = r.offset.getD 0 ∧
      byteAt b 15 = (match r.state with | .staged => 0 | .mounted => 1 | .prepared => 2 | .running => 3 | .butt => 4) ∧
      byteAt b 16 = (match r.place with | none => 255 | some p => p.stand.val) ∧
      byteAt b 17 = (match r.place with | none => 255 | some p => (match p.arm with | .a => 0 | .b => 1 | .c => 2)) ∧
      byteAt b 18 = r.mismatch.toNat + 2 * r.lock.toNat + 4 * r.deadReckoning.toNat + 8 * r.stale.toNat +
        16 * r.offset.isSome.toNat + 32 * r.spliceNumber.isSome.toNat ∧
      valueAt b 19 2 = (r.spliceNumber.map BitVec.toNat).getD 0) ∧
  ∀ o : OpenNotice,
    let b := bufferOfReply (noticeImage o)
    let d := o.notice.detail
    (noticeImage o).length = 9 ∧ byteAt b 0 = o.source.val ∧
      byteAt b 1 = (match o.cls with | .reel => 0 | .splice => 1 | .line => 2) ∧ byteAt b 2 = o.notice.causes.toNat ∧
      byteAt b 3 = d.running.isSome.toNat + 2 * d.candidate.isSome.toNat + 4 * d.spliceNumber.isSome.toNat +
        8 * d.reason.isSome.toNat ∧
      byteAt b 4 = (match d.running with | none => 255 | some h => h.val) ∧
      byteAt b 5 = (match d.candidate with | none => 255 | some h => h.val) ∧
      valueAt b 6 2 = (d.spliceNumber.map BitVec.toNat).getD 0 ∧
      byteAt b 8 = (match d.reason with
        | none => 0 | some .hold => 1 | some .disable => 2 | some .reset => 3
        | some .pathStop => 4 | some .stall => 5 | some .markLost => 6 | some .postponed => 7 | some .webBreak => 8
        | some .noMarks => 9)

/-- The stand image: part 0 (Figure 45), part 1 of a stand without a splice context (R179) and with one (Figure 46). -/
def Obligations.StandImageHasItsLayout : Prop :=
  (∀ (n : StandNo) (st : Stand) (w : Watcher) (q : StandProfile), w.pLast < 65536 → q.failureField < 256 →
    st.queue.length ≤ 2 →
    let b := bufferOfReply (standStatusImage n st w q)
    (standStatusImage n st w q).length = 14 ∧ byteAt b 0 = n.val ∧
      byteAt b 1 = (match st.state with
        | .off => 0 | .idle => 1 | .running => 2 | .waiting => 3 | .backoff => 4 | .held => 5
        | .locked => 6 | .runUp => 7 | .paste => 8 | .cut => 9 | .settle => 10) ∧
      byteAt b 2 = (match st.running with | none => 255 | some h => h.val) ∧ byteAt b 3 = st.queue.length ∧
      byteAt b 4 = (match st.queue[0]? with | none => 255 | some h => h.val) ∧
      byteAt b 5 = (match st.queue[1]? with | none => 255 | some h => h.val) ∧
      byteAt b 6 = st.warn.toNat + 2 * st.splice.toNat + 4 * st.critical.toNat + 8 * st.hold.toNat + 16 * st.lock.toNat +
        32 * st.stall.toNat + 64 * st.webBroken.toNat ∧
      byteAt b 7 = (match st.level with | none => 0 | some .early => 1 | some .normal => 2 | some .urgent => 3) ∧
      byteAt b 8 = st.deferredReset.toNat + 2 * st.deferredDisable.toNat + 4 * st.deferredProfile.toNat ∧
      byteAt b 9 = (match w.state with | .idle => 0 | .starting => 1 | .timing => 2 | .reckoning => 3) ∧
      valueAt b 10 2 = w.pLast ∧
      byteAt b 12 = (match q.outcome with | .none => 0 | .pending => 1 | .applied => 2 | .refused => 3) ∧
      byteAt b 13 = q.failureField ∧
      (st.context = none → bufferOfReply (spliceContextImage n st) = bufferOfReply [BitVec.ofNat 8 n.val])) ∧
  ∀ (n : StandNo) (st : Stand) (c : SpliceContext), st.context = some c → c.circumference < 65536 → c.matchCount < 256 →
    (∀ f, c.firePoint = some f → f < 65536) → c.settleMarks < 256 →
    let b := bufferOfReply (spliceContextImage n st)
    let stage := match st.state with | .paste => c.phaseTarget | .cut => c.knifeTarget | .settle => c.settleTarget | _ => none
    (spliceContextImage n st).length = 21 ∧ byteAt b 0 = n.val ∧
      byteAt b 1 = 1 + 2 * c.forced.toNat + 4 * c.permitHeld.toNat + 8 * c.watchArmed.toNat + 16 * c.breakInCut.toNat +
        32 * c.firePoint.isSome.toNat + 64 * c.spliceNumber.isSome.toNat ∧
      byteAt b 2 = c.fresh.val ∧
      byteAt b 3 = (match c.freshArm with | none => 255 | some .a => 0 | some .b => 1 | some .c => 2) ∧
      byteAt b 4 = (match c.former with | none => 255 | some h => h.val) ∧ valueAt b 5 2 = c.circumference ∧
      byteAt b 7 = c.matchCount ∧ valueAt b 8 2 = c.firePoint.getD 0 ∧
      valueAt b 10 4 = (if c.watchArmed then (c.watchDeadline.map BitVec.toNat).getD 0 else 0) ∧
      valueAt b 14 4 = (stage.map BitVec.toNat).getD 0 ∧
      valueAt b 18 2 = (c.spliceNumber.map BitVec.toNat).getD 0 ∧ byteAt b 20 = c.settleMarks

/-- The path image: part 0 (Figure 47), parts 1 to 4 of a record and of a position beyond the records (Figure 48, R179), and
part 5 (Figure 49).
That the levels are those of the arbiter's entries is log 26; that a part beyond the records carries path and position in bytes 0 and
1 is log 28. -/
def Obligations.PathImageHasItsLayout : Prop :=
  (∀ (s : State) (p : PathNo), (s.transit p).queue.length ≤ 4 →
    let b := bufferOfReply (pathStatusImage s p)
    let a := s.arbiter p
    let t := s.transit p
    (pathStatusImage s p).length = 20 ∧ byteAt b 0 = p.val ∧ valueAt b 1 4 = (s.web p).counter.toNat ∧
      byteAt b 5 = (s.web p).moving.toNat + 2 * t.reject.toNat + 4 * a.pathClear.toNat ∧
      byteAt b 6 = (match a.permit with | .free => 0 | .granted _ => 1 | .forced _ => 2) ∧
      byteAt b 7 = (match a.permit with | .free => 255 | .granted n => n.val | .forced n => n.val) ∧
      valueAt b 8 2 = t.spliceCounter.toNat ∧ byteAt b 10 = t.queue.length ∧
      (∀ n : StandNo, byteAt b (11 + n.val / 4) / 4 ^ (n.val % 4) % 4 =
        if s.pathOf n = p then (match a.requests[n] with | none => 0 | some .early => 1 | some .normal => 2 | some .urgent => 3)
        else 0) ∧
      ∀ n : StandNo, ((valueAt b 14 2).testBit n.val = (decide (s.pathOf n = p) && a.marks[n].early)) ∧
        ((valueAt b 16 2).testBit n.val = (decide (s.pathOf n = p) && a.marks[n].normal)) ∧
        (valueAt b 18 2).testBit n.val = (decide (s.pathOf n = p) && a.marks[n].urgent)) ∧
  (∀ (p : PathNo) (position : Nat) (r : TransitRecord), position ≤ 4 → r.merged ≤ 255 →
      let b := bufferOfReply (transitRecordImage p position (some r))
      (transitRecordImage p position (some r)).length = 23 ∧ byteAt b 0 = p.val ∧ byteAt b 1 = position ∧
        byteAt b 2 = r.rejecting.toNat + 2 * r.guardReached.toNat + 4 * r.forced.toNat + 8 * r.overlap.toNat + 128 ∧
        valueAt b 3 2 = r.spliceNumber.toNat ∧ byteAt b 5 = r.stand.val ∧ valueAt b 6 4 = r.pasteCount.toNat ∧
        valueAt b 10 4 = r.rejectStart.toNat ∧ valueAt b 14 4 = r.rejectEnd.toNat ∧ valueAt b 18 4 = r.guardCount.toNat ∧
        byteAt b 22 = r.merged) ∧
    (∀ (p : PathNo) (position : Nat), transitRecordImage p position none = [BitVec.ofNat 8 p.val, BitVec.ofNat 8 position, 0]) ∧
    ∀ (p : PathNo) (g : PathSettings), g.guardLength < 16777216 → g.rejectLead < 65536 → g.rejectLength < 16777216 →
      g.stopTime < 65536 →
      let b := bufferOfReply (settingsImage p g)
      (settingsImage p g).length = 11 ∧ byteAt b 0 = p.val ∧ valueAt b 1 3 = g.guardLength ∧ valueAt b 4 2 = g.rejectLead ∧
        valueAt b 6 3 = g.rejectLength ∧ valueAt b 9 2 = g.stopTime

/-! ### Commands of the Reel Table -/

/-- ENTER REEL (R12): a value out of range answers BAD-VALUE, a tag that a live record carries DUPLICATE-TAG, a full table
TABLE-FULL, in that order, and nothing changes; otherwise the record stands in the lowest free slot as R12 gives it, the reply
carries its handle, and nothing else changes. -/
def Obligations.EnterReelCreatesTheRecord : Prop :=
  ∀ (ps : Buffer) (position : Nat) (s : State), Offered .enterReel ps position s → NoDecisionOwed s →
    let tag := valueAt ps 0 4
    let grade := byteAt ps 4
    let width := byteAt ps 5
    let core := byteAt ps 6
    let diameter := valueAt ps 7 2
    let caliper := byteAt ps 9
    let presence := byteAt ps 10
    let offset := valueAt ps 11 2
    let inRange := (1 ≤ tag ∧ tag ≤ 4294967295) ∧ (1 ≤ grade ∧ grade ≤ 63) ∧ (1 ≤ width ∧ width ≤ 4) ∧
      (70 ≤ core ∧ core ≤ 160) ∧ (100 ≤ diameter ∧ diameter ≤ 1400) ∧ core ≤ diameter ∧ (40 ≤ caliper ∧ caliper ≤ 150) ∧
      (presence = 0 ∨ presence = 1 ∧ offset ≤ 999)
    let known := ∃ h r, s.reel h = some r ∧ r.tag = tag
    let run := exec (.enterReel (.take position)) s
    (¬inRange → run = .next (replied s position .badValue [])) ∧
      (inRange → known → run = .next (replied s position .duplicateTag [])) ∧
      (inRange → ¬known → (∀ h, s.reel h ≠ none) → run = .next (replied s position .tableFull [])) ∧
      (inRange → ¬known → ∀ h : Handle, s.reel h = none → (∀ k < h, s.reel k ≠ none) →
        run = .next (replied
          (s.setReel h (some
            { tag := tag
              grade := grade
              width := width
              core := core
              diameter := diameter
              caliper := caliper
              length := lengthOf diameter core caliper
              offset := if presence = 1 then some offset else none
              state := .staged
              place := none
              mismatch := false
              lock := false
              deadReckoning := false
              stale := false
              spliceNumber := none }))
          position .done [BitVec.ofNat 8 h.val]))

/-- FIND REEL (R13): a tag of 0 answers BAD-VALUE, a tag no live record carries NOT-FOUND, and otherwise the reply carries the
handle of the record that carries it; nothing changes. -/
def Obligations.FindReelAnswersTheHandleOfTheTag : Prop :=
  ∀ (ps : Buffer) (position : Nat) (s : State), Offered .findReel ps position s → NoDecisionOwed s → TagsDistinct s →
    let tag := valueAt ps 0 4
    let run := exec (.findReel (.take position)) s
    (tag < 1 ∨ 4294967295 < tag → run = .next (replied s position .badValue [])) ∧
      (1 ≤ tag → tag ≤ 4294967295 → (∀ h r, s.reel h = some r → r.tag ≠ tag) →
        run = .next (replied s position .notFound [])) ∧
      ∀ h r, s.reel h = some r → r.tag = tag → 1 ≤ tag → tag ≤ 4294967295 →
        run = .next (replied s position .done [BitVec.ofNat 8 h.val])

/-- FETCH REEL, FETCH STAND and FETCH PATH (R14, R179): the checks in their order, and the image asked for; nothing changes.
The image of a path part beyond the records is log 28's. -/
def Obligations.FetchCommandsAnswerTheImages : Prop :=
  ∀ (ps : Buffer) (position : Nat) (s : State), NoDecisionOwed s →
    (Offered .fetchReel ps position s →
      ((∀ h : Handle, byteAt ps 0 = h.val → s.reel h = none) →
        exec (.fetchReel (.take position)) s = .next (replied s position .badHandle [])) ∧
      ∀ (h : Handle) (r : Reel), byteAt ps 0 = h.val → s.reel h = some r →
        exec (.fetchReel (.take position)) s = .next (replied s position .done (reelImage h r))) ∧
    (Offered .fetchStand ps position s →
      (12 ≤ byteAt ps 0 → exec (.fetchStand (.take position)) s = .next (replied s position .badStand [])) ∧
      ∀ n : StandNo, byteAt ps 0 = n.val →
        (byteAt ps 1 = 0 → exec (.fetchStand (.take position)) s =
          .next (replied s position .done (standStatusImage n (s.stand n) (s.watcher n) (s.profile n)))) ∧
        (byteAt ps 1 = 1 → exec (.fetchStand (.take position)) s =
          .next (replied s position .done (spliceContextImage n (s.stand n)))) ∧
        (2 ≤ byteAt ps 1 → exec (.fetchStand (.take position)) s = .next (replied s position .badValue []))) ∧
    (Offered .fetchPath ps position s →
      (4 ≤ byteAt ps 0 → exec (.fetchPath (.take position)) s = .next (replied s position .badValue [])) ∧
      ∀ p : PathNo, byteAt ps 0 = p.val →
        (byteAt ps 1 = 0 → exec (.fetchPath (.take position)) s = .next (replied s position .done (pathStatusImage s p))) ∧
        (1 ≤ byteAt ps 1 → byteAt ps 1 ≤ 4 → exec (.fetchPath (.take position)) s =
          .next (replied s position .done
            (transitRecordImage p (byteAt ps 1) ((s.transit p).queue[byteAt ps 1 - 1]?)))) ∧
        (byteAt ps 1 = 5 → exec (.fetchPath (.take position)) s =
          .next (replied s position .done (settingsImage p (s.setting p)))) ∧
        (6 ≤ byteAt ps 1 → exec (.fetchPath (.take position)) s = .next (replied s position .badValue [])))

/-- AMEND REEL on a live record (R15, R16, Figure 8): a mask with bit 6 or 7, a named value out of range, or a diameter below
the core diameter after the change answers BAD-VALUE; then the mask is tested against the state; an amendment that passes
writes the named items, computes the length anew where it depends on one of them, and answers the image. A free slot answers
BAD-HANDLE. Nothing else changes, and a refused amendment changes nothing. -/
def Obligations.AmendReelWritesTheNamedItems : Prop :=
  ∀ (ps : Buffer) (position : Nat) (s : State), Offered .amendReel ps position s → NoDecisionOwed s →
    let run := exec (.amendReel (.take position)) s
    ((∀ h : Handle, byteAt ps 0 = h.val → s.reel h = none) → run = .next (replied s position .badHandle [])) ∧
    ∀ (h : Handle) (r : Reel), byteAt ps 0 = h.val → s.reel h = some r →
      let mask := byteAt ps 1
      let names := fun bit => mask.testBit bit
      let amended : Reel :=
        { r with
          grade := if names 0 then byteAt ps 2 else r.grade
          width := if names 1 then byteAt ps 3 else r.width
          core := if names 2 then byteAt ps 4 else r.core
          diameter := if names 3 then valueAt ps 5 2 else r.diameter
          caliper := if names 4 then byteAt ps 7 else r.caliper
          offset := if names 5 then (if byteAt ps 8 = 1 then some (valueAt ps 9 2) else none) else r.offset }
      let inRange := mask < 64 ∧ (names 0 = true → 1 ≤ byteAt ps 2 ∧ byteAt ps 2 ≤ 63) ∧
        (names 1 = true → 1 ≤ byteAt ps 3 ∧ byteAt ps 3 ≤ 4) ∧ (names 2 = true → 70 ≤ byteAt ps 4 ∧ byteAt ps 4 ≤ 160) ∧
        (names 3 = true → 100 ≤ valueAt ps 5 2 ∧ valueAt ps 5 2 ≤ 1400) ∧
        (names 4 = true → 40 ≤ byteAt ps 7 ∧ byteAt ps 7 ≤ 150) ∧
        (names 5 = true → byteAt ps 8 = 0 ∨ byteAt ps 8 = 1 ∧ valueAt ps 9 2 ≤ 999) ∧
        (names 2 = true ∨ names 3 = true → amended.core ≤ amended.diameter)
      let other := names 0 = true ∨ names 1 = true ∨ names 2 = true ∨ names 3 = true
      (¬inRange → run = .next (replied s position .badValue [])) ∧
        (inRange → r.state = .prepared → other → run = .next (replied s position .wrongState [])) ∧
        (inRange → r.state = .prepared → ¬other → r.lock = true → mask ≠ 0 → run = .next (replied s position .inSplice [])) ∧
        (inRange → r.state = .running → other ∨ names 5 = true → run = .next (replied s position .wrongState [])) ∧
        (inRange → r.state = .butt → mask ≠ 0 → run = .next (replied s position .wrongState [])) ∧
        (inRange →
          (r.state = .staged ∨ r.state = .mounted ∨ (r.state = .prepared ∧ ¬other ∧ (r.lock = false ∨ mask = 0)) ∨
            (r.state = .running ∧ ¬other ∧ names 5 = false) ∨ (r.state = .butt ∧ mask = 0)) →
          let w : Reel :=
            { amended with
              length :=
                if names 2 || names 3 || names 4 then lengthOf amended.diameter amended.core amended.caliper else r.length }
          run = .next (replied (s.setReel h (some w)) position .done (reelImage h w)))

/-- MOUNT REEL (R17): the handle, the stand, the arm code, the state and the arm are checked in that order; a STAGED record is
placed as MOUNTED on an empty arm. Nothing else changes, and a refused command changes nothing. -/
def Obligations.MountReelPlacesAStagedRecord : Prop :=
  ∀ (ps : Buffer) (position : Nat) (s : State), Offered .mountReel ps position s → NoDecisionOwed s →
    let run := exec (.mountReel (.take position)) s
    ((∀ h : Handle, byteAt ps 0 = h.val → s.reel h = none) → run = .next (replied s position .badHandle [])) ∧
    ∀ (h : Handle) (r : Reel), byteAt ps 0 = h.val → s.reel h = some r →
      (12 ≤ byteAt ps 1 → run = .next (replied s position .badStand [])) ∧
      (byteAt ps 1 < 12 → 3 ≤ byteAt ps 2 → run = .next (replied s position .badValue [])) ∧
      ∀ (n : StandNo) (arm : Arm), byteAt ps 1 = n.val → byteAt ps 2 = armNumber arm →
        let held := ∃ k q, s.reel k = some q ∧ q.place = some ⟨n, arm⟩
        (r.state ≠ .staged → run = .next (replied s position .wrongState [])) ∧
          (r.state = .staged → held → run = .next (replied s position .armOccupied [])) ∧
          (r.state = .staged → ¬held →
            run = .next (replied (s.setReel h (some { r with state := .mounted, place := some ⟨n, arm⟩ })) position .done
              [BitVec.ofNat 8 h.val, 1]))

/-- The offer of a reel to its stand's order queue, of fewer than 2 entries (R28, R29): a reel whose grade and width class the
stand's working profile requires, or does not care for, joins at the tail and loses MISMATCH; a RUNNING stand that gains a
candidate enters WAITING at the level its flags call for. Any other reel takes MISMATCH, the cause is filed, and nothing else
changes. -/
def Obligations.AnOfferedReelJoinsOrIsRefused : Prop :=
  ∀ (s : State) (n : StandNo) (h : Handle) (r : Reel), s.reel h = some r →
    let st := s.stand n
    let w := s.working n
    let fits := (w.requiredGrade = 0 ∨ w.requiredGrade = r.grade) ∧ (w.requiredWidth = 0 ∨ w.requiredWidth = r.width)
    let joined :=
      (s.setReel h (some { r with mismatch := false })).modStand n fun st => { st with queue := st.queue ++ [h] }
    (¬fits → s.offer n h =
        (s.setReel h (some { r with mismatch := true })).fileReel n .mismatch ⟨st.running, some h, none, none⟩) ∧
      (fits → (st.queue ≠ [] ∨ st.state ≠ .running ∨ (st.splice = false ∧ st.warn = false)) → s.offer n h = joined) ∧
      (fits → st.queue = [] → st.state = .running → st.splice = true → s.offer n h = joined.enterWaiting n (some .urgent)) ∧
      (fits → st.queue = [] → st.state = .running → st.splice = false → st.warn = true →
        s.offer n h = joined.enterWaiting n (some .normal))

/-- PREPARE REEL (R18, R19) and a press of LOAD DONE (R22): a MOUNTED reel, and for the command a PREPARED one outside its
queue, is offered to its stand's queue where that holds fewer than 2 entries; the reply carries the handle, the state and the
position in the queue. The refusals and the presses that do nothing or file UNREGISTERED-LOAD are those of the rules.
The decisions that a row prompts are made once, after it (log 3), and its reply before them (log 4). -/
def Obligations.PrepareReelAndLoadDoneOfferTheReel : Prop :=
  (∀ (ps : Buffer) (position : Nat) (s : State), Offered .prepareReel ps position s →
    let run := exec (.prepareReel (.take position)) s
    (NoDecisionOwed s → (∀ h : Handle, byteAt ps 0 = h.val → s.reel h = none) →
      run = .next (replied s position .badHandle [])) ∧
    ∀ (h : Handle) (r : Reel) (place : Place), byteAt ps 0 = h.val → s.reel h = some r → r.place = some place →
      let n := place.stand
      let queue := (s.stand n).queue
      let mayOffer := r.state = .mounted ∨ r.state = .prepared ∧ h ∉ queue
      (NoDecisionOwed s → ¬mayOffer → run = .next (replied s position .wrongState [])) ∧
        (NoDecisionOwed s → mayOffer → 2 ≤ queue.length → run = .next (replied s position .queueFull [])) ∧
        (mayOffer → queue.length < 2 →
          let u := ((taken s position).setReel h (some { r with state := .prepared })).offer n h
          ∃ place : Byte, run = .next (answered u .done [BitVec.ofNat 8 h.val, 2, place]) ∧
            ((u.stand n).queue[0]? = some h → place = 1) ∧
            ((u.stand n).queue[0]? ≠ some h → (u.stand n).queue[1]? = some h → place = 2) ∧
            (h ∉ (u.stand n).queue.take 2 → place = 0))) ∧
  (∀ (ps : Buffer) (position : Nat) (s : State), Offered .prepareReel ps position s → NoDecisionOwed s →
    ∀ (h : Handle) (r : Reel), byteAt ps 0 = h.val → s.reel h = some r → r.place = none →
      exec (.prepareReel (.take position)) s = .next (replied s position .wrongState [])) ∧
  ∀ (n : StandNo) (arm : Arm) (s : State), Settling n (.loadDone arm) true s → PlacesDistinct s →
    let u := settledAt s n (.loadDone arm) true
    let run := exec (.loadDone n arm) s
    ((∀ h r, s.reel h = some r → r.place ≠ some ⟨n, arm⟩) →
      run = .next (u.fileReel n .unregisteredLoad ⟨none, none, none, none⟩).settleDecisions) ∧
    ∀ (h : Handle) (r : Reel), s.reel h = some r → r.place = some ⟨n, arm⟩ →
      (r.state = .mounted → (s.stand n).queue.length < 2 →
        run = .next ((u.setReel h (some { r with state := .prepared })).offer n h).settleDecisions) ∧
      (r.state ≠ .mounted ∨ 2 ≤ (s.stand n).queue.length → run = .next u.settleDecisions)

/-- UNMOUNT REEL and RETIRE REEL (R20, R21): the refusals by state and lock, the record returned to STAGED or removed, with its
place and tag, and the leave of its order queue. Nothing else changes but what the leave of a head brings (R31).
The decisions that a row prompts are made once, after it (log 3), and its reply before them (log 4). -/
def Obligations.UnmountReelAndRetireReelTakeTheReel : Prop :=
  ∀ (ps : Buffer) (position : Nat) (s : State) (retire : Bool),
    Offered (if retire then .retireReel else .unmountReel) ps position s → NoDecisionOwed s →
    let run := exec (if retire then .retireReel (.take position) else .unmountReel (.take position)) s
    ((∀ h : Handle, byteAt ps 0 = h.val → s.reel h = none) → run = .next (replied s position .badHandle [])) ∧
    ∀ (h : Handle) (r : Reel), byteAt ps 0 = h.val → s.reel h = some r →
      let staged := s.setReel h (some { r with state := .staged, place := none })
      let removed := s.setReel h none
      let tag := BitVec.ofNat 8 h.val :: leBytes 4 r.tag
      (r.state = .running → run = .next (replied s position .wrongState [])) ∧
        (r.state = .prepared → r.lock = true → run = .next (replied s position .inSplice [])) ∧
        (retire = false → r.state = .staged → run = .next (replied s position .wrongState [])) ∧
        (retire = false → r.state = .mounted → run = .next (replied staged position .done [BitVec.ofNat 8 h.val, 0])) ∧
        (retire = false → r.state = .butt → run = .next (replied removed position .done [BitVec.ofNat 8 h.val, 0xFF])) ∧
        (retire = true → r.state = .staged ∨ r.state = .mounted ∨ r.state = .butt →
          run = .next (replied removed position .done tag)) ∧
        ∀ place : Place, r.state = .prepared → r.lock = false → r.place = some place →
          (retire = false → run = .next (answered ((taken staged position).leaveByCommand place.stand h) .done
            [BitVec.ofNat 8 h.val, 0])) ∧
          (retire = true → run = .next (answered ((taken removed position).leaveByCommand place.stand h) .done tag))

/-- The leave of an entry of an order queue by UNMOUNT REEL or RETIRE REEL (R30, R31): the list closes up. The last entry of a
WAITING stand takes it back to RUNNING with its request withdrawn and CANDIDATE-LOST filed; that of a stand in BACKOFF has
CANDIDATE-LOST filed; in every other case nothing else changes. -/
def Obligations.TheLeaveOfAHeadIsAnswered : Prop :=
  ∀ (s : State) (n : StandNo) (h : Handle),
    let st := s.stand n
    let closed := s.modStand n fun st => { st with queue := st.queue.filter (· != h) }
    let lost : Detail := ⟨st.running, some h, none, none⟩
    (st.queue = [h] → st.state = .waiting →
        s.leaveByCommand n h =
          ((closed.modStand n fun st => { st with state := .running, level := none }).withdrawRequest (s.pathOf n)
            n).fileReel n .candidateLost lost) ∧
      (st.queue = [h] → st.state = .backoff → s.leaveByCommand n h = closed.fileReel n .candidateLost lost) ∧
      (st.queue.filter (· != h) ≠ [] ∨ st.queue.head? ≠ some h ∨ (st.state ≠ .waiting ∧ st.state ≠ .backoff) →
        s.leaveByCommand n h = closed)

/-! ### Commands of a stand -/

/-- REORDER (R33): a head with SPLICE-LOCK answers IN-SPLICE and a queue of fewer than 2 entries WRONG-STATE; otherwise the two
entries change places and the reply carries them in their new order. Nothing else changes, in whatever state the stand is. -/
def Obligations.ReorderSwapsTheEntries : Prop :=
  ∀ (ps : Buffer) (position : Nat) (s : State), Offered .reorder ps position s → NoDecisionOwed s →
    let run := exec (.reorder (.take position)) s
    (12 ≤ byteAt ps 0 → run = .next (replied s position .badStand [])) ∧
    ∀ n : StandNo, byteAt ps 0 = n.val →
      let queue := (s.stand n).queue
      let locked := ∃ h r, queue.head? = some h ∧ s.reel h = some r ∧ r.lock = true
      (locked → run = .next (replied s position .inSplice [])) ∧
        (¬locked → queue.length < 2 → run = .next (replied s position .wrongState [])) ∧
        ∀ first second : Handle, ¬locked → queue = [first, second] →
          run = .next (replied (s.modStand n fun st => { st with queue := [second, first] }) position .done
            [BitVec.ofNat 8 second.val, BitVec.ofNat 8 first.val])

/-- STAND DISABLE, the entry to OFF that it and a deferred disable make, and STAND ENABLE (R97, R98, R99, R51, R188), by the
state of the stand.
The decisions that a row prompts are made once, after it (log 3), and its reply before them (log 4).
What an idle watcher still holds is log 16. -/
def Obligations.StandDisableAndEnableActByState : Prop :=
  (∀ (ps : Buffer) (position : Nat) (s : State) (n : StandNo), byteAt ps 0 = n.val →
    let st := s.stand n
    (Offered .standDisable ps position s →
      let run := exec (.standDisable (.take position)) s
      let marked := s.modStand n fun st => { st with deferredDisable := true }
      let abandoned := (((taken s position).abandon n .disable).enterOff n).applyDeferredProfile n
      (NoDecisionOwed s → st.state = .off → run = .next (replied s position .done [0])) ∧
        (NoDecisionOwed s → st.state = .cut → run = .next (replied marked position .deferred [9])) ∧
        (NoDecisionOwed s → st.state = .settle → run = .next (replied marked position .deferred [10])) ∧
        (st.state = .runUp ∨ st.state = .paste →
          run = .next (answered abandoned .done [standStateCode (abandoned.stand n).state])) ∧
        (splicing st.state = false → st.state ≠ .off → run = .next (answered ((taken s position).enterOff n) .done [0]))) ∧
    (Offered .standEnable ps position s →
      let run := exec (.standEnable (.take position)) s
      let released := (taken s position).modOutputs n fun o =>
        { o with
          drive := if o.driveMaintained then false else o.drive
          brake := if o.brakeMaintained then false else o.brake
          driveMaintained := false
          brakeMaintained := false }
      let resumed := released.resumeMeasurement n
      (NoDecisionOwed s → st.state ≠ .off → st.state ≠ .cut → st.state ≠ .settle →
          run = .next (replied s position .done [standStateCode st.state])) ∧
        (NoDecisionOwed s → st.state = .cut ∨ st.state = .settle →
          run = .next (replied (s.modStand n fun st => { st with deferredDisable := false }) position .done
            [standStateCode st.state])) ∧
        (st.state = .off →
          (st.lock = true →
            run = .next (answered (resumed.modStand n fun st => { st with state := .locked }) .done [6])) ∧
          (st.lock = false → st.hold = true → st.running ≠ none →
            run = .next (answered (resumed.modStand n fun st => { st with state := .held }) .done [5])) ∧
          (st.lock = false → st.hold = false → st.running ≠ none →
            run = .next (answered (resumed.enterRunning n) .done [standStateCode ((resumed.enterRunning n).stand n).state])) ∧
          (st.lock = false → st.running = none →
            run = .next (answered (resumed.modStand n fun st => { st with state := .idle }) .done [1]))))) ∧
  (∀ (c : Command) (ps : Buffer) (position : Nat) (s : State), c = .standDisable ∨ c = .standEnable → Offered c ps position s →
    NoDecisionOwed s → 12 ≤ byteAt ps 0 → exec (rowOf c (.take position)) s = .next (replied s position .badStand [])) ∧
  ∀ (s : State) (n : StandNo),
    let st := s.stand n
    let quiet := (if st.state = .waiting then s.withdrawRequest (s.pathOf n) n else s).modWatcher n fun w =>
      { w with
        state := .idle
        arm := none
        path := none
        deadline := none
        reckoningCount := none }
    let off := fun st : Stand => { st with state := .off, level := none, backoffTimer := none }
    (st.running = none → s.enterOff n = quiet.modStand n off ∧ s.resumeMeasurement n = s) ∧
      ∀ h : Handle, st.running = some h →
        s.enterOff n = (quiet.modReel h fun r => { r with stale := true }).modStand n off ∧
          s.resumeMeasurement n = (s.modReel h fun r => { r with stale := false }).startWatcher n

/-- STAND RESET and the reset effects (R100, R101, R169): the pending notices of the stand's source go, in all three classes,
and SRQ is judged again; then the stand acts by its state.
The decisions that a row prompts are made once, after it (log 3), and its reply before them (log 4). -/
def Obligations.StandResetActsByState : Prop :=
  (∀ (ps : Buffer) (position : Nat) (s : State), Offered .standReset ps position s → NoDecisionOwed s → 12 ≤ byteAt ps 0 →
    exec (.standReset (.take position)) s = .next (replied s position .badStand [])) ∧
  (∀ (ps : Buffer) (position : Nat) (s : State) (n : StandNo), Offered .standReset ps position s → byteAt ps 0 = n.val →
    let run := exec (.standReset (.take position)) s
    let st := s.stand n
    let quiet := (taken s position).modNotices fun u =>
      let e : NoticeUnit :=
        { u with
          reel := u.reel.set n none
          splice := u.splice.set n none
          line := u.line.set n.val none (Nat.lt_trans n.isLt (by decide)) }
      { e with srq := e.srqCondition }
    let abandoned := ((quiet.abandon n .reset).resetEffects n).applyDeferredProfile n
    (st.state = .cut ∨ st.state = .settle →
        run = .next (answered (quiet.modStand n fun st => { st with deferredReset := true }) .deferred
          [standStateCode st.state])) ∧
      (st.state = .runUp ∨ st.state = .paste →
        run = .next (answered abandoned .done [standStateCode (abandoned.stand n).state])) ∧
      (splicing st.state = false →
        run = .next (answered (quiet.resetEffects n) .done [standStateCode ((quiet.resetEffects n).stand n).state]))) ∧
  ∀ (s : State) (n : StandNo),
    let st := s.stand n
    let cleared :=
      ((if st.state = .waiting then s.withdrawRequest (s.pathOf n) n else s).modArbiter (s.pathOf n) fun b =>
          { b with marks := b.marks.set n ⟨false, false, false⟩ }).modStand n fun st =>
        { st with hold := false, lock := false, stall := false, backoffTimer := none, level := none }
    (st.state = .off → s.resetEffects n = cleared) ∧
      (st.state ≠ .off → st.running ≠ none → s.resetEffects n = cleared.enterRunning n) ∧
      (st.state ≠ .off → st.running = none →
        s.resetEffects n = cleared.modStand n fun st => { st with state := .idle })

/-- THREAD REEL (R87, R88): the checks in their order; then an ended running reel becomes BUTT, the named reel RUNNING without a
splice number, out of the queue and the stand's running reel, its watcher starts, the flags are tested, and the stand enters or
stays HELD with its hold flag set, and enters RUNNING otherwise.
The decisions that a row prompts are made once, after it (log 3), and its reply before them (log 4). -/
def Obligations.ThreadReelMakesTheRunningReel : Prop :=
  (∀ (ps : Buffer) (position : Nat) (s : State), Offered .threadReel ps position s → NoDecisionOwed s →
    let run := exec (.threadReel (.take position)) s
    ((∀ h : Handle, byteAt ps 1 = h.val → s.reel h = none) → run = .next (replied s position .badHandle [])) ∧
    ∀ (h : Handle) (r : Reel), byteAt ps 1 = h.val → s.reel h = some r →
      (12 ≤ byteAt ps 0 → run = .next (replied s position .badStand [])) ∧
      ∀ n : StandNo, byteAt ps 0 = n.val →
        let st := s.stand n
        let free := st.state = .idle ∨ st.state = .held ∧ (st.running = none ∨ st.webBroken = true)
        let mine := (r.state = .mounted ∨ r.state = .prepared) ∧ ∃ arm, r.place = some ⟨n, arm⟩
        (¬free ∨ ¬mine → run = .next (replied s position .wrongState [])) ∧
          (free → mine → (s.web (s.pathOf n)).moving = true → run = .next (replied s position .pathMoving []))) ∧
  ∀ (ps : Buffer) (position : Nat) (s : State) (h : Handle) (r : Reel) (n : StandNo) (arm : Arm),
    Offered .threadReel ps position s → byteAt ps 1 = h.val → s.reel h = some r → byteAt ps 0 = n.val →
    (s.stand n).state = .idle ∨ (s.stand n).state = .held ∧ ((s.stand n).running = none ∨ (s.stand n).webBroken = true) →
    r.state = .mounted ∨ r.state = .prepared → r.place = some ⟨n, arm⟩ → (s.web (s.pathOf n)).moving = false →
    let running :=
      ((((taken s position).endRunningReel n).becomeRunning h none).modStand n fun st =>
        { st with queue := st.queue.filter (· != h), running := some h }).startWatcher n
    let threaded :=
      if (s.stand n).hold then (running.testFlags n).modStand n fun st => { st with state := .held }
      else (running.testFlags n).enterRunning n
    exec (.threadReel (.take position)) s =
      .next (answered threaded .done
        [standStateCode (threaded.stand n).state, handleByte (threaded.stand n).running])

/-- HOLD, RELEASE and the HOLD key (R94, R95, R96): a command that changes the flag, and each press, which inverts it, makes the
stand act by its state.
The decisions that a row prompts are made once, after it (log 3), and its reply before them (log 4). -/
def Obligations.HoldAndReleaseActByState : Prop :=
  (∀ (c : Command) (ps : Buffer) (position : Nat) (s : State), c = .hold ∨ c = .release → Offered c ps position s →
    NoDecisionOwed s → 12 ≤ byteAt ps 0 → exec (rowOf c (.take position)) s = .next (replied s position .badStand [])) ∧
  (∀ (ps : Buffer) (position : Nat) (s : State) (n : StandNo), byteAt ps 0 = n.val →
    let st := s.stand n
    let held := (taken s position).setHold n
    let freed := (taken s position).clearHold n
    (Offered .hold ps position s →
      (NoDecisionOwed s → st.hold = true →
        exec (.hold (.take position)) s = .next (replied s position .done [standStateCode st.state, 1])) ∧
      (st.hold = false → exec (.hold (.take position)) s =
        .next (answered held .done [standStateCode (held.stand n).state, flagByte (held.stand n).hold]))) ∧
    (Offered .release ps position s →
      (NoDecisionOwed s → st.hold = false →
        exec (.release (.take position)) s = .next (replied s position .done [standStateCode st.state, 0])) ∧
      (st.hold = true → exec (.release (.take position)) s =
        .next (answered freed .done [standStateCode (freed.stand n).state, flagByte (freed.stand n).hold])))) ∧
  (∀ (n : StandNo) (s : State), Settling n .hold true s →
    exec (.holdKey n) s =
      .next (if (s.stand n).hold then (settledAt s n .hold true).clearHold n
        else (settledAt s n .hold true).setHold n).settleDecisions) ∧
  ∀ (s : State) (n : StandNo),
    let st := s.stand n
    let set := s.modStand n fun st => { st with hold := true }
    let freed := s.modStand n fun st => { st with hold := false }
    let halt := fun st : Stand => { st with state := .held, level := none, backoffTimer := none }
    (st.state = .running ∨ st.state = .backoff → s.setHold n = set.modStand n halt) ∧
      (st.state = .waiting → s.setHold n = (set.withdrawRequest (s.pathOf n) n).modStand n halt) ∧
      (st.state = .runUp ∨ st.state = .paste → st.context ≠ none →
        s.setHold n = ((set.abandon n .hold).modStand n halt).applyDeferredProfile n) ∧
      (st.state = .cut ∨ st.state = .settle ∨ st.state = .idle ∨ st.state = .held ∨ st.state = .locked ∨ st.state = .off →
        s.setHold n = set) ∧
      (st.state ≠ .held → s.clearHold n = freed) ∧
      (st.state = .held → st.running ≠ none → s.clearHold n = freed.enterRunning n) ∧
      (st.state = .held → st.running = none → s.clearHold n = freed.modStand n fun st => { st with state := .idle })

/-- SPLICE SOON, SPLICE NOW and the SPLICE key (R68, R69, R70): the refusals by the queue and the state, in that order; the entry
into WAITING, the rise of a level, and the reply of the stand's state and level. A press acts as SPLICE NOW where that would
answer DONE.
The decisions that a row prompts are made once, after it (log 3), and its reply before them (log 4). -/
def Obligations.SpliceCommandsAskForASplice : Prop :=
  (∀ (now : Bool) (ps : Buffer) (position : Nat) (s : State),
    Offered (if now then .spliceNow else .spliceSoon) ps position s →
    let run := exec (if now then .spliceNow (.take position) else .spliceSoon (.take position)) s
    let asked := if now then some Level.urgent else some Level.early
    (NoDecisionOwed s → 12 ≤ byteAt ps 0 → run = .next (replied s position .badStand [])) ∧
    ∀ n : StandNo, byteAt ps 0 = n.val →
      let st := s.stand n
      let waiting := (taken s position).enterWaiting n asked
      (NoDecisionOwed s → st.queue = [] → run = .next (replied s position .noCandidate [])) ∧
        (NoDecisionOwed s → st.queue ≠ [] → splicing st.state = true → run = .next (replied s position .inSplice [])) ∧
        (NoDecisionOwed s → st.queue ≠ [] → st.state = .off ∨ st.state = .idle ∨ st.state = .held ∨ st.state = .locked →
          run = .next (replied s position .wrongState [])) ∧
        (st.queue ≠ [] → st.state = .running →
          run = .next (answered waiting .done
            [standStateCode (waiting.stand n).state, levelCode (waiting.stand n).level])) ∧
        (NoDecisionOwed s → st.queue ≠ [] → st.state = .waiting → now = false ∨ st.level = some .urgent →
          run = .next (replied s position .done [3, levelCode st.level])) ∧
        (st.queue ≠ [] → st.state = .waiting → now = true → st.level ≠ some .urgent →
          run = .next (answered
            (((taken s position).modStand n fun st => { st with level := some .urgent }).raiseRequest (s.pathOf n) n
              (some .urgent))
            .done [3, 3])) ∧
        (NoDecisionOwed s → st.queue ≠ [] → st.state = .backoff → now = false →
          run = .next (replied s position .done [4, levelCode st.level])) ∧
        (NoDecisionOwed s → st.queue ≠ [] → st.state = .backoff → now = true →
          run = .next (replied (s.modStand n fun st => { st with level := some .urgent }) position .done [4, 3]))) ∧
  ∀ (n : StandNo) (s : State), Settling n .splice true s →
    let st := s.stand n
    let u := settledAt s n .splice true
    let run := exec (.spliceKey n) s
    (st.queue ≠ [] → st.state = .running → run = .next (u.enterWaiting n (some .urgent)).settleDecisions) ∧
      (st.queue ≠ [] → st.state = .waiting → st.level ≠ some .urgent →
        run = .next ((u.modStand n fun st => { st with level := some .urgent }).raiseRequest (s.pathOf n) n
          (some .urgent)).settleDecisions) ∧
      (st.queue ≠ [] → st.state = .backoff →
        run = .next (u.modStand n fun st => { st with level := some .urgent }).settleDecisions) ∧
      (st.queue = [] ∨ (st.state ≠ .running ∧ st.state ≠ .waiting ∧ st.state ≠ .backoff) ∨
          (st.state = .waiting ∧ st.level = some .urgent) →
        run = .next u.settleDecisions)

/-- OUTPUT (R187), the expiry of a brake timer (R63) and the end of a pulse (R62, R186).
The decisions that a row prompts are made once, after it (log 3).
An expiry may come at any moment while its timer runs (log 8); a pulse of a splice on an output still pulsing starts its
timer again (log 18). -/
def Obligations.OutputsAreDrivenAsCommanded : Prop :=
  (∀ (ps : Buffer) (position : Nat) (s : State), Offered .output ps position s → NoDecisionOwed s →
    let run := exec (.output (.take position)) s
    let drive := byteAt ps 1
    let brake := byteAt ps 2
    let pulse := byteAt ps 3
    (12 ≤ byteAt ps 0 → run = .next (replied s position .badStand [])) ∧
    ∀ n : StandNo, byteAt ps 0 = n.val →
      let inRange := drive ≤ 2 ∧ brake ≤ 2 ∧ pulse ≤ 2
      let busy := pulse = 1 ∧ (s.output n).paste ≠ none ∨ pulse = 2 ∧ (s.output n).knife ≠ none
      let width := (s.working n).pulseWidth
      let set := fun o : Outputs =>
        { drive := if drive = 0 then o.drive else decide (drive = 2)
          driveMaintained := o.driveMaintained || decide (drive ≠ 0)
          brake := if brake = 0 then o.brake else decide (brake = 2)
          brakeMaintained := o.brakeMaintained || decide (brake ≠ 0)
          paste := if pulse = 1 then some width else o.paste
          knife := if pulse = 2 then some width else o.knife : Outputs }
      let o := set (s.output n)
      (¬inRange → run = .next (replied s position .badValue [])) ∧
        (inRange → (s.stand n).state ≠ .off ∨ busy → run = .next (replied s position .wrongState [])) ∧
        (inRange → (s.stand n).state = .off → ¬busy →
          run = .next (replied
            ((s.modStand n fun st => { st with brakeTimer := if brake = 0 then st.brakeTimer else none }).modOutputs n set)
            position .done
            [BitVec.ofNat 8 n.val, flagByte o.drive, flagByte o.brake, flagByte o.driveMaintained,
              flagByte o.brakeMaintained]))) ∧
  (∀ (n : StandNo) (s : State), s.phase = .ready →
    ((s.stand n).brakeTimer ≠ none → exec (.brakeTimerExpiry n) s =
      .next ((s.modStand n fun st => { st with brakeTimer := none }).modOutputs n fun o =>
        { o with brake := false }).settleDecisions) ∧
    exec (.pulseEnd n .paste) s = .next (s.modOutputs n fun o => { o with paste := none }).settleDecisions ∧
    exec (.pulseEnd n .knife) s = .next (s.modOutputs n fun o => { o with knife := none }).settleDecisions) ∧
  ∀ (s : State) (n : StandNo),
    s.startPulse n .paste = (s.modOutputs n fun o => { o with paste := some (s.working n).pulseWidth }) ∧
      s.startPulse n .knife = s.modOutputs n fun o => { o with knife := some (s.working n).pulseWidth }

/-! ### Profiles and path settings -/

/-- PROFILE WRITE, PROFILE READ (R150, R151) and PATH SET (R157): the checks in their order, the field written or read by its
number, the settings replaced, and the replies.
That the reply of PATH SET carries no path is log 17. -/
def Obligations.ProfilesAndSettingsAreWritten : Prop :=
  (∀ w : Profile, [1, 2, 3, 4, 5, 6, 7, 8, 9, 10, 11, 12, 13, 14, 15, 16, 17].map (profileField w) =
    [w.path, w.requiredGrade, w.requiredWidth, w.warnDiameter, w.spliceDiameter, w.criticalDiameter, w.defaultOffset,
      w.pasteLead, w.knifeDistance, w.gateDistance, w.runUpTime, w.settleLength, w.retryDelay, w.brakeTime, w.speedTolerance,
      w.matchRevolutions, w.pulseWidth]) ∧
  (∀ (c : Command) (ps : Buffer) (position : Nat) (s : State), c = .profileWrite ∨ c = .profileRead → Offered c ps position s →
    NoDecisionOwed s → 12 ≤ byteAt ps 0 → exec (rowOf c (.take position)) s = .next (replied s position .badStand [])) ∧
  (∀ (ps : Buffer) (position : Nat) (s : State) (n : StandNo), byteAt ps 0 = n.val → NoDecisionOwed s →
    let field := byteAt ps 1
    (Offered .profileWrite ps position s →
      let run := exec (.profileWrite (.take position)) s
      let value := valueAt ps 2 4
      (field < 1 ∨ 17 < field → run = .next (replied s position .badValue [])) ∧
        (1 ≤ field → field ≤ 17 → ∃ w : Profile,
          run = .next (replied (s.modProfile n fun q => { q with staged := w }) position .done
            ([BitVec.ofNat 8 n.val, BitVec.ofNat 8 field] ++ leBytes 4 value)) ∧
          ∀ k, 1 ≤ k → k ≤ 17 → profileField w k = if k = field then value else profileField (s.profile n).staged k)) ∧
    (Offered .profileRead ps position s →
      let run := exec (.profileRead (.take position)) s
      let read := fun w : Profile =>
        [BitVec.ofNat 8 n.val, BitVec.ofNat 8 field, BitVec.ofNat 8 (byteAt ps 2)] ++ leBytes 4 (profileField w field)
      (field < 1 ∨ 17 < field ∨ 1 < byteAt ps 2 → run = .next (replied s position .badValue [])) ∧
        (1 ≤ field → field ≤ 17 → byteAt ps 2 = 0 →
          run = .next (replied s position .done (read (s.profile n).staged))) ∧
        (1 ≤ field → field ≤ 17 → byteAt ps 2 = 1 →
          run = .next (replied s position .done (read (s.profile n).working))))) ∧
  ∀ (ps : Buffer) (position : Nat) (s : State), Offered .pathSet ps position s → NoDecisionOwed s →
    let run := exec (.pathSet (.take position)) s
    let g : PathSettings := ⟨valueAt ps 1 3, valueAt ps 4 2, valueAt ps 6 3, valueAt ps 9 2⟩
    let inRange := g.guardLength ≤ 100000 ∧ g.rejectLead ≤ 10000 ∧ (1000 ≤ g.rejectLength ∧ g.rejectLength ≤ 100000) ∧
      (100 ≤ g.stopTime ∧ g.stopTime ≤ 5000)
    (4 ≤ byteAt ps 0 ∨ ¬inRange → run = .next (replied s position .badValue [])) ∧
      ∀ p : PathNo, byteAt ps 0 = p.val → inRange →
        (∀ n : StandNo, s.pathOf n = p → (s.working n).gateDistance < g.rejectLead →
          (∀ m < n, s.pathOf m = p → g.rejectLead ≤ (s.working m).gateDistance) →
          run = .next (replied s position .badProfile [BitVec.ofNat 8 n.val])) ∧
        ((∀ n : StandNo, s.pathOf n = p → g.rejectLead ≤ (s.working n).gateDistance) →
          run = .next (replied (s.setSetting p g) position .done
            (leBytes 3 g.guardLength ++ leBytes 2 g.rejectLead ++ leBytes 3 g.rejectLength ++ leBytes 2 g.stopTime)))

/-- PROFILE CHANGE (R153), the validation (R152), the application of a valid profile (R154, R46, R131) with the re-check of the
queue (R35, R31), and the deferred application (R155, R156).
The decisions that a row prompts are made once, after it (log 3), and its reply before them (log 4). -/
def Obligations.ProfileChangeValidatesAndApplies : Prop :=
  (∀ (ps : Buffer) (position : Nat) (s : State), Offered .profileChange ps position s →
    let run := exec (.profileChange (.take position)) s
    (NoDecisionOwed s → 12 ≤ byteAt ps 0 → run = .next (replied s position .badStand [])) ∧
    ∀ n : StandNo, byteAt ps 0 = n.val →
      let applied := ((taken s position).modProfile n fun q => { q with outcome := .applied, failureField := 0 }).applyProfile n
      (NoDecisionOwed s → splicing (s.stand n).state = true →
        run = .next (replied ((s.modStand n fun st => { st with deferredProfile := true }).modProfile n fun q =>
          { q with outcome := .pending, failureField := 0 }) position .deferred [])) ∧
      (NoDecisionOwed s → splicing (s.stand n).state = false → ∀ field, s.validateProfile n = some field →
        run = .next (replied (s.modProfile n fun q => { q with outcome := .refused, failureField := field }) position .badProfile
          [BitVec.ofNat 8 field])) ∧
      (splicing (s.stand n).state = false → s.validateProfile n = none →
        run = .next (answered applied .done [standStateCode (applied.stand n).state]))) ∧
  (∀ (s : State) (n : StandNo),
    let w := (s.profile n).staged
    let inRange := fun k => profileFieldInRange k (profileField w k) = true
    let ordered := w.criticalDiameter < w.spliceDiameter ∧ w.spliceDiameter < w.warnDiameter
    let clearsGate := (s.setting (profilePath w)).rejectLead ≤ w.gateDistance
    (∀ k, 1 ≤ k → k ≤ 17 → (∀ j, 1 ≤ j → j < k → inRange j) → ¬inRange k → s.validateProfile n = some k) ∧
      ((∀ k, 1 ≤ k → k ≤ 17 → inRange k) → ¬ordered → s.validateProfile n = some 5) ∧
      ((∀ k, 1 ≤ k → k ≤ 17 → inRange k) → ordered → ¬clearsGate → s.validateProfile n = some 10) ∧
      ((∀ k, 1 ≤ k → k ≤ 17 → inRange k) → ordered → clearsGate → s.validateProfile n = none)) ∧
  (∀ v, [1, 2, 3, 4, 5, 6, 7, 8].map (fun k => profileFieldInRange k v) =
    [decide (v ≤ 3), decide (v ≤ 63), decide (v ≤ 4), decide (150 ≤ v ∧ v ≤ 1000), decide (120 ≤ v ∧ v ≤ 900),
      decide (100 ≤ v ∧ v ≤ 800), decide (v ≤ 999), decide (v ≤ 999)]) ∧
  (∀ v, [9, 10, 11, 12, 13, 14, 15, 16, 17].map (fun k => profileFieldInRange k v) =
    [decide (100 ≤ v ∧ v ≤ 5000), decide (1000 ≤ v ∧ v ≤ 200000), decide (10 ≤ v ∧ v ≤ 600), decide (1000 ≤ v ∧ v ≤ 50000),
      decide (1 ≤ v ∧ v ≤ 60), decide (5 ≤ v ∧ v ≤ 200), decide (1 ≤ v ∧ v ≤ 30), decide (1 ≤ v ∧ v ≤ 8),
      decide (v = 20 ∨ v = 40 ∨ v = 60 ∨ v = 80)]) ∧
  (∀ (s : State) (n : StandNo),
    let old := s.pathOf n
    let copied := s.modProfile n fun q => { q with working := q.staged }
    let new := copied.pathOf n
    let moved :=
      (((copied.modArbiter old fun b => { b with marks := b.marks.set n ⟨false, false, false⟩ }).modArbiter new fun b =>
        { b with marks := b.marks.set n ⟨false, false, false⟩ }).moveWatcher n).recheck old n
    (new = old → s.applyProfile n = (copied.recheck old n).testFlags n) ∧
      (new ≠ old → (moved.stand n).state = .waiting → s.applyProfile n =
        ((moved.withdrawRequest old n).raiseRequest new n (moved.stand n).level).testFlags n) ∧
      (new ≠ old → (moved.stand n).state ≠ .waiting → s.applyProfile n = moved.testFlags n)) ∧
  (∀ (s : State) (p : PathNo) (n : StandNo) (h k : Handle),
    let st := s.stand n
    let fits := fun x => (s.reel x).any (joinTest (s.working n))
    let drop := fun (u : State) (x : Handle) =>
      ((u.modStand n fun st => { st with queue := st.queue.filter (· != x) }).modReel x fun r => { r with mismatch := true }).fileReel
        n .mismatch ⟨st.running, some x, none, none⟩
    (st.queue = [] → s.recheck p n = s) ∧
      (st.queue = [h] → fits h = true → s.recheck p n = s) ∧
      (st.queue = [h] → fits h = false → s.recheck p n = (drop s h).respondToLeave p n h) ∧
      (st.queue = [h, k] → h ≠ k → fits h = true → fits k = true → s.recheck p n = s) ∧
      (st.queue = [h, k] → h ≠ k → fits h = true → fits k = false → s.recheck p n = drop s k) ∧
      (st.queue = [h, k] → h ≠ k → fits h = false → fits k = true → s.recheck p n = drop s h) ∧
      (st.queue = [h, k] → h ≠ k → fits h = false → fits k = false →
        s.recheck p n = (drop (drop s h) k).respondToLeave p n k) ∧
      (st.queue ≠ [] ∨ (st.state ≠ .waiting ∧ st.state ≠ .backoff) → s.respondToLeave p n h = s) ∧
      (st.queue = [] → st.state = .backoff →
        s.respondToLeave p n h = s.fileReel n .candidateLost ⟨st.running, some h, none, none⟩) ∧
      (st.queue = [] → st.state = .waiting → s.respondToLeave p n h =
        ((s.modStand n fun st => { st with state := .running, level := none }).withdrawRequest p n).fileReel n .candidateLost
          ⟨st.running, some h, none, none⟩)) ∧
  ∀ (s : State) (n : StandNo),
    let cleared := s.modStand n fun st => { st with deferredProfile := false }
    let due := (s.stand n).deferredProfile = true ∧ splicing (s.stand n).state = false
    (¬due → s.applyDeferredProfile n = s) ∧
      (due → ∀ field, s.validateProfile n = some field → s.applyDeferredProfile n =
        cleared.modProfile n fun q => { q with outcome := .refused, failureField := field }) ∧
      (due → s.validateProfile n = none → s.applyDeferredProfile n =
        (cleared.modProfile n fun q => { q with outcome := .applied, failureField := 0 }).applyProfile n)

/-! ### Notices -/

/-- Filing (R162), ACCEPT NOTICE (R166) and END NOTICE (R168). A filing joins its cause to the pair's set and replaces the
detail whole, and SRQ is judged again. An acceptance takes the pending notice of the class whose source comes first after the
rotation pointer, going from 15 to 0. -/
def Obligations.NoticesAreGatheredAcceptedAndEnded : Prop :=
  (∀ (old : Notice) (mask : Byte) (d : Detail),
    gather none mask d = ⟨mask, d⟩ ∧ gather (some old) mask d = ⟨old.causes ||| mask, d⟩) ∧
  ([ReelCause.unregisteredLoad, .mismatch, .candidateLost, .noCandidate, .runoutNear].map ReelCause.mask = [1, 2, 4, 8, 16] ∧
    [SpliceCause.complete, .failed, .aborted, .forced, .locked].map SpliceCause.mask = [1, 2, 4, 8, 16] ∧
    [LineCause.markLost, .markRestored, .webBreak, .runout, .pathStopped, .pathStarted, .overlap, .merged].map LineCause.mask =
      [1, 2, 4, 8, 16, 32, 64, 128]) ∧
  (∀ (s : State) (n : StandNo) (d : Detail),
    (∀ c, s.fileReel n c d = s.modNotices fun u =>
      let e : NoticeUnit := { u with reel := u.reel.set n (some (gather u.reel[n] c.mask d)) }
      { e with srq := e.srqCondition }) ∧
    ∀ c, s.fileSplice n c d = s.modNotices fun u =>
      let e : NoticeUnit := { u with splice := u.splice.set n (some (gather u.splice[n] c.mask d)) }
      { e with srq := e.srqCondition }) ∧
  (∀ (s : State) (src : Source) (c : LineCause) (d : Detail), s.fileLine src c d = s.modNotices fun u =>
    let e : NoticeUnit := { u with line := u.line.set src (some (gather u.line[src] c.mask d)) }
    { e with srq := e.srqCondition }) ∧
  (∀ (ps : Buffer) (position : Nat) (s : State), Offered .acceptNotice ps position s → NoDecisionOwed s →
    let run := exec (.acceptNotice (.take position)) s
    (3 ≤ byteAt ps 0 → run = .next (replied s position .badValue [])) ∧
      (byteAt ps 0 < 3 → ∀ o, s.notices.opened = some o → run = .next (replied s position .noticeOpen (noticeImage o))) ∧
      ∀ cls : NoticeClass, byteAt ps 0 = (match cls with | .reel => 0 | .splice => 1 | .line => 2) → s.notices.opened = none →
        let u := s.notices
        ((∀ src, u.pendingOf cls src = none) → run = .next (replied s position .noNotice [])) ∧
          ∀ (src : Source) (w : Notice), u.pendingOf cls src = some w →
            (∀ other : Source, (other - u.pointer cls - 1).val < (src - u.pointer cls - 1).val → u.pendingOf cls other = none) →
            ∃ v : NoticeUnit,
              run = .next (replied (s.modNotices fun _ => v) position .done (noticeImage ⟨src, cls, w⟩)) ∧
                v.opened = some ⟨src, cls, w⟩ ∧ v.srq = false ∧
                (∀ c x, v.pendingOf c x = if c = cls ∧ x = src then none else u.pendingOf c x) ∧
                (∀ c, v.pointer c = if c = cls then src else u.pointer c) ∧
                v.reelEnable = u.reelEnable ∧ v.spliceEnable = u.spliceEnable ∧ v.lineEnable = u.lineEnable) ∧
  ∀ (ps : Buffer) (position : Nat) (s : State), Offered .endNotice ps position s → NoDecisionOwed s →
    let run := exec (.endNotice (.take position)) s
    (s.notices.opened = none → run = .next (replied s position .noneOpen [])) ∧
      ∀ o, s.notices.opened = some o →
        run = .next (replied
          (s.modNotices fun u =>
            let e : NoticeUnit := { u with opened := none }
            { e with srq := e.srqCondition })
          position .done [BitVec.ofNat 8 o.source.val, classCode o.cls])

/-! ### The web and its measurement -/

/-- An edge of a WEB PULSE input that comes 40 µs or more after the last pulse, and the first after initialisation (R185), adds
1 to the path counter, restarts the motion timer for the stop time of the path settings, and makes a STOPPED path MOVING with
PATH-STARTED filed (R39, R41). At the expiry of the timer the path becomes STOPPED, PATH-STOPPED is filed, and each stand of the
path in RUN-UP or PASTE abandons its splice and re-enters WAITING at its kept level (R104), in the order that the row gives
(log 5), each with the decision that follows it. Before either, the targets that the last pulse reached are taken (R40), as
ReachedTargetsAreTakenBeforeTheNextPulse says. The decisions that a row prompts are made once, after it (log 3). The spacing is an
operand of the row (log 9). -/
def Obligations.PulsesCountAndTheWebStops : Prop :=
  (∀ (p : PathNo) (since : Nat) (s : State), s.phase = .ready →
    let w := s.web p
    let counted := (s.takeReached p).modWeb p fun w => ⟨w.counter + 1, true, some (s.setting p).stopTime, true⟩
    let run := exec (.webPulse p since) s
    (w.pulseTaken = true → since < 40 → run = .next s.settleDecisions) ∧
      (w.pulseTaken = false ∨ 40 ≤ since → w.moving = true → run = .next counted.settleDecisions) ∧
      (w.pulseTaken = false ∨ 40 ≤ since → w.moving = false →
        run = .next (counted.fileLine ⟨12 + p.val, by omega⟩ .pathStarted ⟨none, none, none, none⟩).settleDecisions)) ∧
  (∀ (p : PathNo) (order : List StandNo) (s : State), s.phase = .ready → (s.web p).motionTimer ≠ none →
    let u := s.takeReached p
    let stopped := (u.modWeb p fun w => { w with moving := false, motionTimer := none }).fileLine ⟨12 + p.val, by omega⟩
      .pathStopped ⟨none, none, none, none⟩
    ∃ stands : List StandNo, stands.Nodup ∧ (∀ n, n ∈ stands ↔ u.pathOf n = p ∧ beforePaste (u.stand n).state = true) ∧
      (order.Nodup → (∀ n, n ∈ order ↔ u.pathOf n = p ∧ beforePaste (u.stand n).state = true) → stands = order) ∧
      exec (.motionTimerExpiry p order) s =
        .next (stands.foldl (fun u n => u.takePathStop n) stopped).settleDecisions) ∧
  ∀ (s : State) (n : StandNo),
    (beforePaste (s.stand n).state = true → s.takePathStop n =
      (((s.abandon n .pathStop).enterWaiting n (s.stand n).level).applyDeferredProfile n).settleDecisions) ∧
      (beforePaste (s.stand n).state = false → s.takePathStop n = s)

/-- A mark of the followed arm (R43, R45, R49, R83, R185): the first interval begins in STARTING; in TIMING the open interval
closes with a sample that is accepted from the core up to the recorded diameter, or discarded; in RECKONING measurement is
restored. In SETTLE the mark counts, up to 2. Any other edge leaves all but the arm's own spacing mark as it was.
The decisions that a row prompts are made once, after it (log 3).
The spacing is an operand of the row (log 9). -/
def Obligations.RunMarksMeasureTheRunningReel : Prop :=
  ∀ (n : StandNo) (arm : Arm) (since : Nat) (s : State), s.phase = .ready →
    let w := s.watcher n
    let st := s.stand n
    let late := markTaken (s.standInputs n) arm = false ∨ 1000 ≤ since
    let edge := s.modInputs n fun i => withMarkTaken i arm
    let counted :=
      if st.state = .settle then
        edge.modStand n fun st =>
          { st with context := st.context.map fun c => { c with settleMarks := min (c.settleMarks + 1) 2 } }
      else edge
    let count := s.countOf n
    let interval := fun (u : State) (pLast : Nat) => u.modWatcher n fun w =>
      { w with
        state := .timing
        reference := count
        pLast := pLast
        deadline := some (count + BitVec.ofNat 32 (2 * pLast))
        reckoningCount := none }
    let pulses := (count - w.reference).toNat
    let sample := pulses * 10000 / 31416
    let run := exec (.runMark n arm since) s
    (¬late → run = .next s.settleDecisions) ∧
      (late → w.arm ≠ some arm ∨ w.state = .idle → run = .next edge.settleDecisions) ∧
      (late → w.arm = some arm → w.state = .starting → run = .next (interval counted w.pLast).settleDecisions) ∧
      ∀ (h : Handle) (r : Reel), st.running = some h → s.reel h = some r → late → w.arm = some arm →
        (w.state = .timing → r.core ≤ sample → sample ≤ r.diameter →
          run = .next (((interval counted pulses).modReel h fun r =>
            { r with diameter := sample, length := lengthOf sample r.core r.caliper }).testFlags n).settleDecisions) ∧
        (w.state = .timing → sample < r.core ∨ r.diameter < sample →
          run = .next (interval counted w.pLast).settleDecisions) ∧
        (w.state = .reckoning →
          run = .next ((interval (counted.modReel h fun r => { r with deadReckoning := false })
            (circumferenceOf r.diameter)).fileLine ⟨n.val, Nat.lt_trans n.isLt (by decide)⟩ .markRestored
              ⟨some h, none, none, none⟩).settleDecisions)

/-- A reel becomes RUNNING (R23) or BUTT (R24), and the watcher follows the running reel: it starts (R44), stops (R51, R52) and
moves to the new path of a change of profile (R46). The reel that ceases to run takes the threshold flags and the web-broken flag
with it (R55, R86). The loss of a run mark at the deadline of a watcher (R47), and a reckoning step each time the counter reaches
the reckoning count + 1,000 (R48).
The decisions that a row prompts are made once, after it (log 3).
What an idle watcher still holds is log 16. -/
def Obligations.TheWatcherFollowsAndReckons : Prop :=
  (∀ (s : State) (n : StandNo) (h : Handle) (r : Reel),
    let st := s.stand n
    let w := s.watcher n
    let count := s.countOf n
    let idle := fun w : Watcher =>
      { w with
        state := .idle
        arm := none
        path := none
        deadline := none
        reckoningCount := none }
    let pLast := circumferenceOf r.diameter
    (∀ number, s.becomeRunning h number = s.modReel h fun r =>
      { r with
        state := .running
        lock := false
        mismatch := false
        deadReckoning := false
        stale := false
        spliceNumber := number }) ∧
      (st.running = none → s.endRunningReel n = s ∧ s.startWatcher n = s) ∧
      (st.running = some h →
        s.endRunningReel n =
          ((s.modReel h fun r => { r with state := .butt, deadReckoning := false, stale := false }).modWatcher n idle).modStand n
            fun st => { st with running := none, warn := false, splice := false, critical := false, webBroken := false }) ∧
      (st.running = some h → s.reel h = some r → r.deadReckoning = false →
        s.startWatcher n = s.modWatcher n fun _ =>
          ⟨.starting, r.place.map (·.arm), some (s.pathOf n), count, pLast, some (count + BitVec.ofNat 32 (2 * pLast)), none⟩) ∧
      (st.running = some h → s.reel h = some r → r.deadReckoning = true →
        s.startWatcher n = s.modWatcher n fun _ =>
          ⟨.reckoning, r.place.map (·.arm), some (s.pathOf n), count, pLast, none, some count⟩) ∧
      (w.state = .idle → s.moveWatcher n = s) ∧
      (w.state = .starting ∨ w.state = .timing → s.moveWatcher n = s.startWatcher n) ∧
      (w.state = .reckoning →
        s.moveWatcher n = s.modWatcher n fun w => { w with path := some (s.pathOf n), reckoningCount := some count })) ∧
  ∀ (n : StandNo) (s : State) (h : Handle) (r : Reel), s.phase = .ready → (s.stand n).running = some h → s.reel h = some r →
    (∀ d : Count, (s.watcher n).state = .starting ∨ (s.watcher n).state = .timing → (s.watcher n).deadline = some d →
      reached (s.countOf n) d = true →
      exec (.runMarkDeadline n) s =
        .next (((s.modReel h fun r => { r with deadReckoning := true }).modWatcher n fun w =>
          { w with state := .reckoning, deadline := none, reckoningCount := some d }).fileLine
            ⟨n.val, Nat.lt_trans n.isLt (by decide)⟩ .markLost ⟨some h, none, none, none⟩).settleDecisions) ∧
    ∀ c : Count, (s.watcher n).state = .reckoning → (s.watcher n).reckoningCount = some c →
      reached (s.countOf n) (c + 1000) = true →
      exec (.reckoningStep n) s =
        .next (((s.modWatcher n fun w => { w with reckoningCount := some (c + 1000) }).modReel h fun r =>
          { r with
            length := r.length - 1
            diameter := min r.diameter (reckonedDiameter r.core r.caliper (r.length - 1)) }).testFlags n).settleDecisions

/-! ### Requests, permits and splices -/

/-- The test of the threshold flags (R54) in the order warn, splice, critical, each flag so set an event of its own; the events
in RUNNING (R65), in WAITING (R66) and in the other states (R67, R36); and the reading that follows an entry into RUNNING (R71). -/
def Obligations.ThresholdEventsAreTakenByState : Prop :=
  (∀ (s : State) (n : StandNo),
    let test := fun (u : State) (diameter : Nat) (t : Threshold) =>
      if thresholdFlag (u.stand n) t = false ∧ diameter ≤ thresholdDiameter (u.working n) t then
        (u.modStand n fun st => withThresholdFlag st t).thresholdEventWith State.forcedTake n t
      else u
    ((s.stand n).running = none → s.testFlags n = s) ∧
      ∀ (h : Handle) (r : Reel), (s.stand n).running = some h → s.reel h = some r →
        s.testFlags n = test (test (test s r.diameter .warn) r.diameter .splice) r.diameter .critical) ∧
  (∀ (s : State) (n : StandNo),
    let st := s.stand n
    let event := fun t => s.thresholdEventWith State.forcedTake n t
    let raise := fun l : Level => (s.modStand n fun st => { st with level := some l }).raiseRequest (s.pathOf n) n (some l)
    (st.state = .running → st.queue ≠ [] →
        event .warn = s.enterWaiting n (some .normal) ∧ event .splice = s.enterWaiting n (some .urgent) ∧
          event .critical = s.enterWaiting n (some .urgent)) ∧
      (st.state = .waiting →
        (st.level = none ∨ st.level = some .early → event .warn = raise .normal) ∧
          (st.level = some .normal ∨ st.level = some .urgent → event .warn = s) ∧
          (st.level ≠ some .urgent → event .splice = raise .urgent) ∧ (st.level = some .urgent → event .splice = s) ∧
          event .critical = State.forcedTake n s) ∧
      (st.state = .runUp ∨ st.state = .paste →
        event .splice = s.modStand n fun st => { st with level := some .urgent }) ∧
      (st.state ≠ .running → st.state ≠ .waiting → st.state ≠ .runUp → st.state ≠ .paste → event .splice = s) ∧
      (st.state = .running → st.queue = [] → event .splice = s) ∧
      (st.state ≠ .running → st.state ≠ .waiting → st.queue ≠ [] → event .warn = s ∧ event .critical = s) ∧
      (st.state ≠ .waiting → st.queue = [] →
        event .warn = s.fileReel n .noCandidate ⟨st.running, none, none, none⟩ ∧
          event .critical = s.fileReel n .runoutNear ⟨st.running, none, none, none⟩)) ∧
  ∀ (s : State) (n : StandNo),
    let st := s.stand n
    let entered := s.modStand n fun st => { st with state := .running, level := none }
    (st.queue = [] ∨ st.warn = false ∧ st.splice = false → s.enterRunning n = entered) ∧
      (st.queue ≠ [] → st.splice = true → s.enterRunning n = entered.enterWaiting n (some .urgent)) ∧
      (st.queue ≠ [] → st.splice = false → st.warn = true → s.enterRunning n = entered.enterWaiting n (some .normal))

/-- The entry into WAITING (R118), the change of a request, the taking of a splice (R72, R73), and the forced take by the state
of the permit (R125) with the displacement of a GRANTED holder (R126), which re-enters WAITING at its kept level, or takes its
splice by force without the permit where its own critical flag is set, and applies a deferred profile after it (R93, R103). -/
def Obligations.SplicesAreTakenByForceOverAHolder : Prop :=
  (∀ (s : State) (p : PathNo) (n : StandNo) (l : Option Level),
    (s.raiseRequest p n l = s.modArbiter p fun b => { b with requests := b.requests.set n l, decisionDue := true }) ∧
      (s.withdrawRequest p n = s.modArbiter p fun b => { b with requests := b.requests.set n none, decisionDue := true }) ∧
      let waiting := s.modStand n fun st => { st with state := .waiting, level := l }
      ((s.stand n).critical = false → s.enterWaiting n l = waiting.raiseRequest (s.pathOf n) n l) ∧
        ((s.stand n).critical = true → s.enterWaiting n l = State.forcedTake n waiting)) ∧
  (∀ (s : State) (n : StandNo) (forced held : Bool) (h : Handle) (r : Reel), (s.stand n).queue.head? = some h → s.reel h = some r →
    s.takeSplice n forced held =
      ((s.setReel h (some { r with lock := true })).modOutputs n fun o => { o with drive := true }).modStand n fun st =>
        { st with
          state := .runUp
          runUpTimer := some (s.working n).runUpTime
          context := some
            { fresh := h
              freshArm := r.place.map (·.arm)
              former := st.running
              forced := forced
              permitHeld := held
              circumference := circumferenceOf r.diameter
              matchCount := 0
              lastMark := none
              watchArmed := false
              watchDeadline := none
              firePoint := none
              phaseTarget := none
              pasteCount := none
              spliceNumber := none
              knifeTarget := none
              settleTarget := none
              settleMarks := 0
              breakInCut := false } }) ∧
  ∀ (s : State) (n : StandNo),
    let p := s.pathOf n
    let detail : Detail := ⟨(s.stand n).running, (s.stand n).queue.head?, none, none⟩
    let asked := s.modArbiter p fun b => { b with requests := b.requests.set n none }
    let seized := s.modArbiter p fun b => { b with requests := b.requests.set n none, permit := .forced n }
    let taken := (seized.takeSplice n true true).fileSplice n .forced detail
    ((s.arbiter p).permit = .free → State.forcedTake n s = taken) ∧
      (∀ m, (s.arbiter p).permit = .forced m →
        State.forcedTake n s = (asked.takeSplice n true false).fileSplice n .forced detail) ∧
      ∀ m : StandNo, (s.arbiter p).permit = .granted m → m ≠ n → beforePaste (s.stand m).state = true → s.pathOf m = p →
        let waiting := (taken.abandon m .postponed).modStand m fun st => { st with state := .waiting }
        ((s.stand m).critical = false →
            State.forcedTake n s = (waiting.raiseRequest p m (s.stand m).level).applyDeferredProfile m) ∧
          ((s.stand m).critical = true → State.forcedTake n s =
            (((waiting.modArbiter p fun b => { b with requests := b.requests.set m none }).takeSplice m true false).fileSplice m
              .forced ⟨(s.stand m).running, (s.stand m).queue.head?, none, none⟩).applyDeferredProfile m)

/-- The decision of an arbiter (R121): a permit that is not FREE stays; a FREE one is adopted by the lowest-numbered stand of the
path splicing without it (R128); otherwise, on a clear path, the stand that R122 chooses is granted it (R124), with its mark at
that level set (R123). A decision owed is made once; where several arbiters owe one, as at a change of path (R131), that of path 0 is
made first (log 3). -/
def Obligations.ArbitersDecideByLevelAndFairShare : Prop :=
  (∀ s : State,
    let decide := fun (u : State) (p : PathNo) =>
      if (u.arbiter p).decisionDue = true then (u.modArbiter p fun b => { b with decisionDue := false }).decision p else u
    s.settleDecisions = decide (decide (decide (decide s 0) 1) 2) 3) ∧
  (∀ (s : State) (p : PathNo), (∀ q, q ≠ p → (s.arbiter q).decisionDue = false) →
    ((s.arbiter p).decisionDue = false → s.settleDecisions = s) ∧
      ((s.arbiter p).decisionDue = true →
        s.settleDecisions = (s.modArbiter p fun b => { b with decisionDue := false }).decision p)) ∧
  ∀ (s : State) (p : PathNo),
    let a := s.arbiter p
    let without := fun n => s.pathOf n = p ∧ beforePaste (s.stand n).state = true ∧
      ∃ c, (s.stand n).context = some c ∧ c.forced = true ∧ c.permitHeld = false
    let waits := fun (n : StandNo) (l : Level) => a.requests[n] = some l
    let grant := fun (n : StandNo) (l : Level) (marks : Vector Marks 12) =>
      (s.modArbiter p fun b =>
        { b with
          permit := .granted n
          requests := b.requests.set n none
          marks := marks.set n (withMark marks[n] l true) }).takeSplice n false true
    (a.permit ≠ .free → s.decision p = s) ∧
      (a.permit = .free → ∀ n, without n → (∀ m < n, ¬without m) →
        s.decision p = (s.modArbiter p fun b => { b with permit := .forced n }).modStand n fun st =>
          { st with context := st.context.map fun c => { c with permitHeld := true } }) ∧
      (a.permit = .free → (∀ n, ¬without n) → a.pathClear = false ∨ (∀ n : StandNo, a.requests[n] = none) → s.decision p = s) ∧
      (a.permit = .free → (∀ n, ¬without n) → a.pathClear = true → ∀ (n : StandNo) (l : Level), waits n l →
        (∀ m k, waits m k → levelRank (some k) ≤ levelRank (some l)) →
        (markOf a.marks[n] l = false → (∀ m < n, waits m l → markOf a.marks[m] l = true) → s.decision p = grant n l a.marks) ∧
          ((∀ m, waits m l → markOf a.marks[m] l = true) → (∀ m < n, ¬waits m l) →
            s.decision p = grant n l (Vector.ofFn fun m : Fin 12 =>
              if s.pathOf m = p then withMark a.marks[m] l false else a.marks[m])))

/-- The abandonment of a splice before its paste (R92), up to the state that the reason gives; the loss of the fresh-reel mark
(R105) and the expiry of the run-up timer (R107), which lead to BACKOFF (R108) or LOCKED; and the expiry of the backoff timer
(R109).
The decisions that a row prompts are made once, after it (log 3).
That a timer may expire at any moment while it runs is log 8. -/
def Obligations.AbandonedSplicesBackOffAndRetry : Prop :=
  (∀ (s : State) (n : StandNo) (reason : Reason),
    ((s.stand n).context = none → s.abandon n reason = s) ∧
      ∀ c, (s.stand n).context = some c →
        let released := (s.modOutputs n fun o => { o with drive := false }).modReel c.fresh fun r => { r with lock := false }
        let finish := fun u : State =>
          (u.fileSplice n .aborted ⟨(s.stand n).running, some c.fresh, none, some reason⟩).modStand n fun st =>
            { st with runUpTimer := none, context := none }
        (c.permitHeld = true → reason ≠ .postponed → s.abandon n reason =
            finish (released.modArbiter (s.pathOf n) fun b => { b with permit := .free, decisionDue := true })) ∧
          (c.permitHeld = false ∨ reason = .postponed → s.abandon n reason = finish released)) ∧
  ∀ (n : StandNo) (s : State), s.phase = .ready →
    let st := s.stand n
    let w := s.working n
    (∀ (c : SpliceContext) (d : Count), st.state = .runUp ∨ st.state = .paste → st.context = some c →
        c.watchDeadline = some d → reached (s.countOf n) d = true →
        exec (.freshReelMarkDeadline n) s =
          .next (((s.abandon n .markLost).modStand n fun st =>
            { st with state := .backoff, backoffTimer := some w.retryDelay }).applyDeferredProfile n).settleDecisions) ∧
      (∀ c : SpliceContext, st.state = .runUp ∨ st.state = .paste → st.context = some c → st.runUpTimer ≠ none →
        (st.stall = false → exec (.runUpTimerExpiry n) s =
          .next (((s.abandon n .stall).modStand n fun st =>
            { st with stall := true, state := .backoff, backoffTimer := some w.retryDelay }).applyDeferredProfile
              n).settleDecisions) ∧
        (st.stall = true → exec (.runUpTimerExpiry n) s =
          .next ((((s.abandon n .stall).modStand n fun st => { st with lock := true, level := none, state := .locked }).fileSplice
            n .locked ⟨st.running, some c.fresh, none, none⟩).applyDeferredProfile n).settleDecisions)) ∧
      (st.state = .backoff → st.backoffTimer ≠ none →
        let stopped := s.modStand n fun st => { st with backoffTimer := none }
        let called := if st.splice then some Level.urgent else if st.warn then some Level.normal else none
        (st.queue = [] → exec (.backoffTimerExpiry n) s =
          .next (stopped.modStand n fun st => { st with state := .running, level := none }).settleDecisions) ∧
        (st.queue ≠ [] → ∃ l, (l = st.level ∨ l = called) ∧ levelRank st.level ≤ levelRank l ∧ levelRank called ≤ levelRank l ∧
          exec (.backoffTimerExpiry n) s = .next (stopped.enterWaiting n l).settleDecisions))

/-- Fresh-reel marks (R75, R76, R78, R79, R185). In RUN-UP the first mark gives no test; each later one closes a revolution, which
counts towards the match or sets it to 0, arms the watch, and, at the match revolutions, takes the stand into PASTE with the fire
point of R77; with a fire point of 0 the paste is taken at once. In PASTE a mark reloads the phase target and the deadline. Every
such mark clears the stall flag. Any other edge leaves all but the arm's spacing mark as it was.
The decisions that a row prompts are made once, after it (log 3).
The spacing is an operand of the row (log 9). -/
def Obligations.FreshReelMarksMatchTheSpeed : Prop :=
  ∀ (n : StandNo) (arm : Arm) (since : Nat) (s : State), s.phase = .ready →
    let st := s.stand n
    let w := s.working n
    let count := s.countOf n
    let late := markTaken (s.standInputs n) arm = false ∨ 1000 ≤ since
    let edge := s.modInputs n fun i => withMarkTaken i arm
    let run := exec (.freshReelMark n arm since) s
    (¬late → run = .next s.settleDecisions) ∧
      (late → (∀ c, st.context = some c → c.freshArm ≠ some arm) ∨ beforePaste st.state = false →
        run = .next edge.settleDecisions) ∧
      ∀ c : SpliceContext, late → st.context = some c → c.freshArm = some arm →
        (st.state = .runUp → c.lastMark = none →
          run = .next (edge.modStand n fun st =>
            { st with stall := false, context := some { c with lastMark := some count, matchCount := 0 } }).settleDecisions) ∧
        (∀ last, st.state = .runUp → c.lastMark = some last →
          let match' := inTolerance (count - last).toNat c.circumference w.speedTolerance
          let armed := c.watchArmed || match'
          let after : SpliceContext :=
            { c with
              lastMark := some count
              matchCount := if match' then c.matchCount + 1 else 0
              watchArmed := armed
              watchDeadline := if armed then some (count + BitVec.ofNat 32 (2 * c.circumference)) else none }
          let offset := ((s.reel c.fresh).bind (·.offset)).getD w.defaultOffset
          let fire := firePointOf c.circumference offset w.pasteLead
          let matched : SpliceContext :=
            { after with firePoint := some fire, phaseTarget := some (count + BitVec.ofNat 32 fire) }
          let pasting := edge.modStand n fun st => { st with state := .paste, stall := false, context := some matched }
          (after.matchCount ≠ w.matchRevolutions →
              run = .next (edge.modStand n fun st => { st with stall := false, context := some after }).settleDecisions) ∧
            (after.matchCount = w.matchRevolutions → 0 < fire → fire < 2147483648 → run = .next pasting.settleDecisions) ∧
            (after.matchCount = w.matchRevolutions → fire = 0 →
              run = .next (pasting.takePaste n matched count).settleDecisions)) ∧
        ∀ fire, st.state = .paste → c.firePoint = some fire → 0 < fire → fire < 2147483648 →
          run = .next (edge.modStand n fun st =>
            { st with
              stall := false
              context := some
                { c with
                  lastMark := some count
                  watchDeadline := some (count + BitVec.ofNat 32 (2 * c.circumference))
                  phaseTarget := some (count + BitVec.ofNat 32 fire) } }).settleDecisions

/-! ### The paste and the transit queue -/

/-- The paste at the phase target (R80, R129): the pulse, the transit record and the splice number, the permit given back where
it is held, and the entry into CUT with its knife target; a knife target that is reached as it is set is taken with it (R40). The
Transit Tracker's part (R135 to R140): a record enters a queue of fewer than 4, with OVERLAP where a guard before it is not reached,
and otherwise the splice is merged into the youngest record.
The decisions that a row prompts are made once, after it (log 3).
That the paste clears the watch-armed mark is log 27. -/
def Obligations.ThePasteEntersATransitRecord : Prop :=
  (∀ (n : StandNo) (s : State) (c : SpliceContext) (t : Count), s.phase = .ready → (s.stand n).state = .paste →
    (s.stand n).context = some c → c.phaseTarget = some t → reached (s.countOf n) t = true →
    exec (.paste n) s = .next (s.takePaste n c t).settleDecisions) ∧
  (∀ (s : State) (n : StandNo) (c : SpliceContext) (paste : Count),
    let pasted := s.makePaste n c paste
    let knife := paste + BitVec.ofNat 32 (s.working n).knifeDistance
    (reached (s.countOf n) knife = false → s.takePaste n c paste = pasted) ∧
      (s.phase = .ready → reached (s.countOf n) knife = true →
        exec (.cut n) pasted = .next (s.takePaste n c paste).settleDecisions)) ∧
  (∀ (s : State) (n : StandNo) (c : SpliceContext) (paste : Count),
    let p := s.pathOf n
    let tracked := (s.modOutputs n fun o => { o with paste := some (s.working n).pulseWidth }).pasteTransit n paste c.forced
    let enter := fun st : Stand =>
      { st with
        state := .cut
        level := none
        stall := false
        runUpTimer := none
        context := some
          { c with
            permitHeld := false
            watchArmed := false
            watchDeadline := none
            phaseTarget := none
            pasteCount := some paste
            spliceNumber := some (s.transit p).spliceCounter
            knifeTarget := some (paste + BitVec.ofNat 32 (s.working n).knifeDistance) } }
    (c.permitHeld = true → s.makePaste n c paste =
        (tracked.modArbiter p fun b => { b with permit := .free, decisionDue := true }).modStand n enter) ∧
      (c.permitHeld = false → s.makePaste n c paste = tracked.modStand n enter)) ∧
  (∀ (s : State) (n : StandNo) (paste : Count) (forced : Bool),
    let p := s.pathOf n
    let t := s.transit p
    let g := s.setting p
    let gate := BitVec.ofNat 32 (s.working n).gateDistance
    let start := paste + gate - BitVec.ofNat 32 g.rejectLead
    let stop := paste + gate + BitVec.ofNat 32 g.rejectLength
    let guard := paste + BitVec.ofNat 32 g.guardLength
    let count := s.countOf n
    let follow := fun (u : State) (queue : List TransitRecord) =>
      (u.modTransit p fun _ => ⟨queue, t.spliceCounter + 1, queue.any (·.rejecting)⟩).modArbiter p fun b =>
        { b with pathClear := decide (queue.length < 4) && queue.all (·.guardReached) }
    let record := fun overlap => (⟨t.spliceCounter, n, paste, start, stop, guard, reached count start, reached count guard, forced,
      overlap, 0⟩ : TransitRecord)
    let named : Detail := ⟨none, none, some t.spliceCounter, none⟩
    let source : Source := ⟨12 + p.val, by omega⟩
    (t.queue.length < 4 → (∀ r ∈ t.queue, r.guardReached = true) →
        s.pasteTransit n paste forced = follow s (t.queue ++ [record false])) ∧
      (t.queue.length < 4 → (∃ r ∈ t.queue, r.guardReached = false) →
        s.pasteTransit n paste forced = follow (s.fileLine source .overlap named) (t.queue ++ [record true])) ∧
      ∀ (older : List TransitRecord) (r : TransitRecord), 3 ≤ older.length → t.queue = older ++ [r] →
        let earlier := fun a b : Count => if (b - r.pasteCount).toNat < (a - r.pasteCount).toNat then b else a
        let later := fun a b : Count => if (a - r.pasteCount).toNat < (b - r.pasteCount).toNat then b else a
        let merged : TransitRecord :=
          { r with
            rejectStart := earlier r.rejectStart start
            rejectEnd := later r.rejectEnd stop
            guardCount := later r.guardCount guard
            rejecting := reached count (earlier r.rejectStart start)
            guardReached := reached count (later r.guardCount guard)
            forced := r.forced || forced
            merged := min (r.merged + 1) 255 }
        s.pasteTransit n paste forced = follow (s.fileLine source .merged named) (older ++ [merged])) ∧
  ∀ (s : State) (n : StandNo) (level : Bool), s.setDrive n level = s.modOutputs n fun o => { o with drive := level }

/-- The targets of the transit records, taken when the path counter has reached them: a TRAVELLING record becomes REJECTING at its
reject start (R141), a record is removed at its reject end, from whatever position (R142), and its guard is reached at its guard
count (R144). REJECT follows the records (R143), and the removal and the guard are reported to the arbiter (R120).
The decisions that a row prompts are made once, after it (log 3). -/
def Obligations.TransitTargetsAreTaken : Prop :=
  ∀ (p : PathNo) (position : Nat) (s : State) (r : TransitRecord), s.phase = .ready → (s.transit p).queue[position]? = some r →
    let t := s.transit p
    let count := (s.web p).counter
    let reject := fun (u : State) (queue : List TransitRecord) =>
      u.modTransit p fun t => { t with queue := queue, reject := queue.any (·.rejecting) }
    let report := fun (u : State) (queue : List TransitRecord) =>
      u.modArbiter p fun b =>
        { b with pathClear := decide (queue.length < 4) && queue.all (·.guardReached), decisionDue := true }
    let started := t.queue.set position { r with rejecting := true }
    let left := t.queue.eraseIdx position
    let guarded := t.queue.set position { r with guardReached := true }
    (r.rejecting = false → reached count r.rejectStart = true →
        exec (.rejectStart p position) s = .next (reject s started).settleDecisions) ∧
      (reached count r.rejectEnd = true →
        exec (.rejectEnd p position) s = .next (report (reject s left) left).settleDecisions) ∧
      (r.guardReached = false → reached count r.guardCount = true →
        exec (.guardCountReached p position) s =
          .next (report (s.modTransit p fun t => { t with queue := guarded }) guarded).settleDecisions)

/-! ### The cut and the end of a splice -/

/-- The cut at the knife target (R82), with the break recorded in CUT taken at the same event (R113); the end of SETTLE at its
target, COMPLETE with 2 settle marks and FAILED with fewer (R84); and the deferred actions after it, reset, disable and profile,
in that order (R103), a deferred disable that finds the stand in RUN-UP by a forced take with its abandonment.
The decisions that a row prompts are made once, after it (log 3).
A deferred reset that finds the stand splicing (log 15) is not stated. -/
def Obligations.TheCutAndTheEndOfSettle : Prop :=
  (∀ (n : StandNo) (s : State) (c : SpliceContext) (t : Count), s.phase = .ready → (s.stand n).state = .cut →
    (s.stand n).context = some c → c.knifeTarget = some t → reached (s.countOf n) t = true →
    let w := s.working n
    let pulsed := s.modOutputs n fun o => { o with knife := some w.pulseWidth }
    let changed :=
      (((pulsed.endRunningReel n).becomeRunning c.fresh c.spliceNumber).modStand n fun st =>
        { st with queue := st.queue.filter (· != c.fresh), running := some c.fresh }).startWatcher n
    let settling := (changed.modOutputs n fun o => { o with brake := true }).modStand n fun st =>
      { st with
        state := .settle
        brakeTimer := some w.brakeTime
        context := some
          { c with
            knifeTarget := none
            settleTarget := some (s.countOf n + BitVec.ofNat 32 w.settleLength)
            settleMarks := 0 } }
    (c.breakInCut = false → exec (.cut n) s = .next (settling.testFlags n).settleDecisions) ∧
      (c.breakInCut = true → exec (.cut n) s = .next ((settling.testFlags n).breakInSettle n c).settleDecisions)) ∧
  (∀ (n : StandNo) (s : State) (c : SpliceContext) (t : Count), s.phase = .ready → (s.stand n).state = .settle →
    (s.stand n).context = some c → c.settleTarget = some t → reached (s.countOf n) t = true →
    let released := s.modOutputs n fun o => { o with drive := false }
    let complete := (released.fileSplice n .complete ⟨c.former, some c.fresh, c.spliceNumber, none⟩).modStand n fun st =>
      { st with context := none }
    (c.settleMarks = 2 → (s.stand n).hold = false →
        exec (.settleTargetReached n) s = .next ((complete.enterRunning n).applyDeferred n).settleDecisions) ∧
      (c.settleMarks = 2 → (s.stand n).hold = true →
        exec (.settleTargetReached n) s =
          .next ((complete.modStand n fun st => { st with state := .held }).applyDeferred n).settleDecisions) ∧
      (c.settleMarks ≠ 2 →
        exec (.settleTargetReached n) s = .next ((s.failSplice n c .noMarks).applyDeferred n).settleDecisions)) ∧
  ∀ (s : State) (n : StandNo),
    (∀ (c : SpliceContext) (reason : Reason), s.failSplice n c reason =
      ((s.modOutputs n fun o => { o with drive := false }).modStand n fun st =>
        { st with state := .held, hold := true, context := none }).fileSplice n .failed
          ⟨c.former, some c.fresh, c.spliceNumber, some reason⟩) ∧
      let reset := s.modStand n fun st => { st with deferredReset := false }
      let disabled := fun u : State => u.modStand n fun st => { st with deferredDisable := false }
      let whole := reset.resetEffects n
      ((s.stand n).deferredReset = false → (s.stand n).deferredDisable = false →
          s.applyDeferred n = s.applyDeferredProfile n) ∧
        ((s.stand n).deferredReset = false → (s.stand n).deferredDisable = true → splicing (s.stand n).state = false →
          s.applyDeferred n = ((disabled s).enterOff n).applyDeferredProfile n) ∧
        ((s.stand n).deferredReset = false → (s.stand n).deferredDisable = true → beforePaste (s.stand n).state = true →
          s.applyDeferred n = (((disabled s).abandon n .disable).enterOff n).applyDeferredProfile n) ∧
        ((s.stand n).deferredReset = true → splicing (s.stand n).state = false →
          ((whole.stand n).deferredDisable = false → s.applyDeferred n = whole.applyDeferredProfile n) ∧
            ((whole.stand n).deferredDisable = true → splicing (whole.stand n).state = false →
              s.applyDeferred n = ((disabled whole).enterOff n).applyDeferredProfile n) ∧
            ((whole.stand n).deferredDisable = true → beforePaste (whole.stand n).state = true →
              s.applyDeferred n = (((disabled whole).abandon n .disable).enterOff n).applyDeferredProfile n))

/-- A web break by the state of the stand: with the critical flag set in RUNNING, WAITING and BACKOFF it is a web end (R89), and
with it clear it is reported only (R90); in RUN-UP and PASTE it abandons the splice (R112); in CUT it is recorded (R113), and the
web-broken flag is set where the stand has a running reel (R86); in SETTLE it fails the splice (R85); in HELD, LOCKED and OFF it
ends or reports the running reel (R114); without a running reel it is only reported (R114).
The decisions that a row prompts are made once, after it (log 3). -/
def Obligations.WebBreaksActByState : Prop :=
  ∀ (n : StandNo) (s : State), Settling n .webBreak true s →
    let st := s.stand n
    let u := settledAt s n .webBreak true
    let run := exec (.webBreak n) s
    let source : Source := ⟨n.val, Nat.lt_trans n.isLt (by decide)⟩
    let named : Detail := ⟨st.running, none, none, none⟩
    let report := fun v : State => (v.modStand n fun st => { st with webBroken := true }).fileLine source .webBreak named
    let finish := fun v : State => (v.endRunningReel n).fileLine source .runout named
    let idle := fun st : Stand => { st with state := .idle, level := none, backoffTimer := none }
    let ended := (u.abandon n .webBreak).modStand n fun st => { st with state := .idle, level := none }
    let stopped := (u.abandon n .webBreak).modStand n fun st => { st with state := .held, level := none, hold := true }
    (st.state = .running ∨ st.state = .backoff → st.running ≠ none → st.critical = true →
        run = .next ((finish u).modStand n idle).settleDecisions) ∧
      (st.state = .waiting → st.running ≠ none → st.critical = true →
        run = .next ((finish (u.withdrawRequest (s.pathOf n) n)).modStand n idle).settleDecisions) ∧
      (st.state = .running ∨ st.state = .waiting ∨ st.state = .backoff → st.critical = false →
        run = .next (report u).settleDecisions) ∧
      (st.state = .runUp ∨ st.state = .paste → st.critical = true →
        run = .next ((finish ended).applyDeferredProfile n).settleDecisions) ∧
      (st.state = .runUp ∨ st.state = .paste → st.critical = false →
        run = .next ((report stopped).applyDeferredProfile n).settleDecisions) ∧
      (st.state = .cut → run = .next (u.modStand n fun st =>
        { st with
          webBroken := st.webBroken || st.running.isSome
          context := st.context.map fun c => { c with breakInCut := true } }).settleDecisions) ∧
      (∀ c, st.state = .settle → st.context = some c → run = .next ((report (u.failSplice n c .webBreak)).applyDeferred
        n).settleDecisions) ∧
      (st.state = .held ∨ st.state = .locked ∨ st.state = .off → st.running ≠ none → st.critical = true →
        run = .next (finish u).settleDecisions) ∧
      (st.state = .held ∨ st.state = .locked ∨ st.state = .off → st.running ≠ none → st.critical = false →
        run = .next (report u).settleDecisions) ∧
      (st.state = .idle ∨ ((st.state = .held ∨ st.state = .locked ∨ st.state = .off) ∧ st.running = none) →
        st.running = none → run = .next (u.fileLine source .webBreak ⟨none, none, none, none⟩).settleDecisions)

/-! ### Targets -/

/-- The targets on the path counters (R40): when each is pending and at what count, and that the row of one that is reached takes its
owner's event. What a pulse has reached and no row has taken is taken before the next pulse of its path counts and before its motion
timer expires, each target as a step of its own and while the counter still stands at that pulse; of those that no row has taken the
order is the model's (log 7). A target that is alone in being due is taken by its row; with none due nothing is taken. -/
def Obligations.ReachedTargetsAreTakenBeforeTheNextPulse : Prop :=
  (∀ (s : State) (n : StandNo),
    let st := s.stand n
    let w := s.watcher n
    s.targetPath (.runMarkDeadline n) = s.pathOf n ∧ s.targetPath (.reckoningStep n) = s.pathOf n ∧
      s.targetPath (.freshReelMarkDeadline n) = s.pathOf n ∧ s.targetPath (.paste n) = s.pathOf n ∧
      s.targetPath (.cut n) = s.pathOf n ∧ s.targetPath (.settle n) = s.pathOf n ∧
      s.pendingTarget (.runMarkDeadline n) = (if w.state = .starting ∨ w.state = .timing then w.deadline else none) ∧
      s.pendingTarget (.reckoningStep n) = (if w.state = .reckoning then w.reckoningCount.map (· + 1000) else none) ∧
      s.pendingTarget (.freshReelMarkDeadline n) =
        (if st.state = .runUp ∨ st.state = .paste then st.context.bind (·.watchDeadline) else none) ∧
      s.pendingTarget (.paste n) = (if st.state = .paste then st.context.bind (·.phaseTarget) else none) ∧
      s.pendingTarget (.cut n) = (if st.state = .cut then st.context.bind (·.knifeTarget) else none) ∧
      s.pendingTarget (.settle n) = (if st.state = .settle then st.context.bind (·.settleTarget) else none)) ∧
  (∀ (s : State) (p : PathNo) (position : Nat),
    (s.targetPath (.rejectStart p position) = p ∧ s.targetPath (.rejectEnd p position) = p ∧
        s.targetPath (.guardCount p position) = p) ∧
      ((s.transit p).queue[position]? = none → s.pendingTarget (.rejectStart p position) = none ∧
        s.pendingTarget (.rejectEnd p position) = none ∧ s.pendingTarget (.guardCount p position) = none) ∧
      ∀ r, (s.transit p).queue[position]? = some r →
        s.pendingTarget (.rejectStart p position) = (if r.rejecting then none else some r.rejectStart) ∧
          s.pendingTarget (.rejectEnd p position) = some r.rejectEnd ∧
          s.pendingTarget (.guardCount p position) = (if r.guardReached then none else some r.guardCount)) ∧
  (∀ (s : State) (t : Target) (c : Count), s.phase = .ready → s.pendingTarget t = some c →
    reached (s.web (s.targetPath t)).counter c = true → exec (rowOfTarget t) s = .next (s.takeTarget t c).settleDecisions) ∧
  (∀ (p : PathNo) (t : Target), t ∈ State.targetsOf p ↔
    match t with
    | .rejectStart q position | .rejectEnd q position | .guardCount q position => q = p ∧ position < 4
    | _ => True) ∧
  ∀ (s : State) (p : PathNo), s.phase = .ready →
    let due := fun (u : State) (t : Target) => u.targetPath t = p ∧
      ∃ c, u.pendingTarget t = some c ∧ reached (u.web (u.targetPath t)).counter c = true
    (s.takeReached p).webs = s.webs ∧
      (∃ states : List State, states.length = (State.targetsOf p).length + 1 ∧ states.head? = some s ∧
        states.getLast? = some (s.takeReached p) ∧
        ∀ k t u v, (State.targetsOf p)[k]? = some t → states[k]? = some u → states[k + 1]? = some v →
          (due u t → v = leftBy (rowOfTarget t) u) ∧ (¬due u t → v = u)) ∧
      ((∀ t ∈ State.targetsOf p, ¬due s t) → s.takeReached p = s) ∧
      ∀ t ∈ State.targetsOf p, due s t → (∀ t' ∈ State.targetsOf p, t' ≠ t → ¬due s t') →
        (∀ t' ∈ State.targetsOf p, ¬due (leftBy (rowOfTarget t) s) t') → s.takeReached p = leftBy (rowOfTarget t) s
end

