-- ==== Sys2Proof/Laws/State.lean ====
section
/-! SUPPORT. One lemma per field and per reading for each update of a block (Machine/Ops.lean), so that no later proof
unfolds a record update. -/

namespace Sys2Proof.Machine.State

/-! ### The fields that an update leaves and the one it changes -/

@[simp] theorem setReel_phase (s : State) (h : Handle) (r : Option Reel) : (s.setReel h r).phase = s.phase := rfl
@[simp] theorem setReel_stands (s : State) (h : Handle) (r : Option Reel) : (s.setReel h r).stands = s.stands := rfl
@[simp] theorem setReel_watchers (s : State) (h : Handle) (r : Option Reel) : (s.setReel h r).watchers = s.watchers := rfl
@[simp] theorem setReel_webs (s : State) (h : Handle) (r : Option Reel) : (s.setReel h r).webs = s.webs := rfl
@[simp] theorem setReel_arbiters (s : State) (h : Handle) (r : Option Reel) : (s.setReel h r).arbiters = s.arbiters := rfl
@[simp] theorem setReel_transits (s : State) (h : Handle) (r : Option Reel) : (s.setReel h r).transits = s.transits := rfl
@[simp] theorem setReel_profiles (s : State) (h : Handle) (r : Option Reel) : (s.setReel h r).profiles = s.profiles := rfl
@[simp] theorem setReel_settings (s : State) (h : Handle) (r : Option Reel) : (s.setReel h r).settings = s.settings := rfl
@[simp] theorem setReel_notices (s : State) (h : Handle) (r : Option Reel) : (s.setReel h r).notices = s.notices := rfl
@[simp] theorem setReel_port (s : State) (h : Handle) (r : Option Reel) : (s.setReel h r).port = s.port := rfl
@[simp] theorem setReel_outputs (s : State) (h : Handle) (r : Option Reel) : (s.setReel h r).outputs = s.outputs := rfl
@[simp] theorem setReel_inputs (s : State) (h : Handle) (r : Option Reel) : (s.setReel h r).inputs = s.inputs := rfl
@[simp] theorem setReel_pending (s : State) (h : Handle) (r : Option Reel) : (s.setReel h r).pending = s.pending := rfl

@[simp] theorem modReel_phase (s : State) (h : Handle) (f : Reel → Reel) : (s.modReel h f).phase = s.phase := rfl
@[simp] theorem modReel_stands (s : State) (h : Handle) (f : Reel → Reel) : (s.modReel h f).stands = s.stands := rfl
@[simp] theorem modReel_watchers (s : State) (h : Handle) (f : Reel → Reel) : (s.modReel h f).watchers = s.watchers := rfl
@[simp] theorem modReel_webs (s : State) (h : Handle) (f : Reel → Reel) : (s.modReel h f).webs = s.webs := rfl
@[simp] theorem modReel_arbiters (s : State) (h : Handle) (f : Reel → Reel) : (s.modReel h f).arbiters = s.arbiters := rfl
@[simp] theorem modReel_transits (s : State) (h : Handle) (f : Reel → Reel) : (s.modReel h f).transits = s.transits := rfl
@[simp] theorem modReel_profiles (s : State) (h : Handle) (f : Reel → Reel) : (s.modReel h f).profiles = s.profiles := rfl
@[simp] theorem modReel_settings (s : State) (h : Handle) (f : Reel → Reel) : (s.modReel h f).settings = s.settings := rfl
@[simp] theorem modReel_notices (s : State) (h : Handle) (f : Reel → Reel) : (s.modReel h f).notices = s.notices := rfl
@[simp] theorem modReel_port (s : State) (h : Handle) (f : Reel → Reel) : (s.modReel h f).port = s.port := rfl
@[simp] theorem modReel_outputs (s : State) (h : Handle) (f : Reel → Reel) : (s.modReel h f).outputs = s.outputs := rfl
@[simp] theorem modReel_inputs (s : State) (h : Handle) (f : Reel → Reel) : (s.modReel h f).inputs = s.inputs := rfl
@[simp] theorem modReel_pending (s : State) (h : Handle) (f : Reel → Reel) : (s.modReel h f).pending = s.pending := rfl

@[simp] theorem modStand_phase (s : State) (n : StandNo) (f : Stand → Stand) : (s.modStand n f).phase = s.phase := rfl
@[simp] theorem modStand_reels (s : State) (n : StandNo) (f : Stand → Stand) : (s.modStand n f).reels = s.reels := rfl
@[simp] theorem modStand_watchers (s : State) (n : StandNo) (f : Stand → Stand) : (s.modStand n f).watchers = s.watchers := rfl
@[simp] theorem modStand_webs (s : State) (n : StandNo) (f : Stand → Stand) : (s.modStand n f).webs = s.webs := rfl
@[simp] theorem modStand_arbiters (s : State) (n : StandNo) (f : Stand → Stand) : (s.modStand n f).arbiters = s.arbiters := rfl
@[simp] theorem modStand_transits (s : State) (n : StandNo) (f : Stand → Stand) : (s.modStand n f).transits = s.transits := rfl
@[simp] theorem modStand_profiles (s : State) (n : StandNo) (f : Stand → Stand) : (s.modStand n f).profiles = s.profiles := rfl
@[simp] theorem modStand_settings (s : State) (n : StandNo) (f : Stand → Stand) : (s.modStand n f).settings = s.settings := rfl
@[simp] theorem modStand_notices (s : State) (n : StandNo) (f : Stand → Stand) : (s.modStand n f).notices = s.notices := rfl
@[simp] theorem modStand_port (s : State) (n : StandNo) (f : Stand → Stand) : (s.modStand n f).port = s.port := rfl
@[simp] theorem modStand_outputs (s : State) (n : StandNo) (f : Stand → Stand) : (s.modStand n f).outputs = s.outputs := rfl
@[simp] theorem modStand_inputs (s : State) (n : StandNo) (f : Stand → Stand) : (s.modStand n f).inputs = s.inputs := rfl
@[simp] theorem modStand_pending (s : State) (n : StandNo) (f : Stand → Stand) : (s.modStand n f).pending = s.pending := rfl

@[simp] theorem modWatcher_phase (s : State) (n : StandNo) (f : Watcher → Watcher) : (s.modWatcher n f).phase = s.phase := rfl
@[simp] theorem modWatcher_reels (s : State) (n : StandNo) (f : Watcher → Watcher) : (s.modWatcher n f).reels = s.reels := rfl
@[simp] theorem modWatcher_stands (s : State) (n : StandNo) (f : Watcher → Watcher) : (s.modWatcher n f).stands = s.stands := rfl
@[simp] theorem modWatcher_webs (s : State) (n : StandNo) (f : Watcher → Watcher) : (s.modWatcher n f).webs = s.webs := rfl
@[simp] theorem modWatcher_arbiters (s : State) (n : StandNo) (f : Watcher → Watcher) : (s.modWatcher n f).arbiters = s.arbiters := rfl
@[simp] theorem modWatcher_transits (s : State) (n : StandNo) (f : Watcher → Watcher) : (s.modWatcher n f).transits = s.transits := rfl
@[simp] theorem modWatcher_profiles (s : State) (n : StandNo) (f : Watcher → Watcher) : (s.modWatcher n f).profiles = s.profiles := rfl
@[simp] theorem modWatcher_settings (s : State) (n : StandNo) (f : Watcher → Watcher) : (s.modWatcher n f).settings = s.settings := rfl
@[simp] theorem modWatcher_notices (s : State) (n : StandNo) (f : Watcher → Watcher) : (s.modWatcher n f).notices = s.notices := rfl
@[simp] theorem modWatcher_port (s : State) (n : StandNo) (f : Watcher → Watcher) : (s.modWatcher n f).port = s.port := rfl
@[simp] theorem modWatcher_outputs (s : State) (n : StandNo) (f : Watcher → Watcher) : (s.modWatcher n f).outputs = s.outputs := rfl
@[simp] theorem modWatcher_inputs (s : State) (n : StandNo) (f : Watcher → Watcher) : (s.modWatcher n f).inputs = s.inputs := rfl
@[simp] theorem modWatcher_pending (s : State) (n : StandNo) (f : Watcher → Watcher) : (s.modWatcher n f).pending = s.pending := rfl

@[simp] theorem modWeb_phase (s : State) (p : PathNo) (f : Web → Web) : (s.modWeb p f).phase = s.phase := rfl
@[simp] theorem modWeb_reels (s : State) (p : PathNo) (f : Web → Web) : (s.modWeb p f).reels = s.reels := rfl
@[simp] theorem modWeb_stands (s : State) (p : PathNo) (f : Web → Web) : (s.modWeb p f).stands = s.stands := rfl
@[simp] theorem modWeb_watchers (s : State) (p : PathNo) (f : Web → Web) : (s.modWeb p f).watchers = s.watchers := rfl
@[simp] theorem modWeb_arbiters (s : State) (p : PathNo) (f : Web → Web) : (s.modWeb p f).arbiters = s.arbiters := rfl
@[simp] theorem modWeb_transits (s : State) (p : PathNo) (f : Web → Web) : (s.modWeb p f).transits = s.transits := rfl
@[simp] theorem modWeb_profiles (s : State) (p : PathNo) (f : Web → Web) : (s.modWeb p f).profiles = s.profiles := rfl
@[simp] theorem modWeb_settings (s : State) (p : PathNo) (f : Web → Web) : (s.modWeb p f).settings = s.settings := rfl
@[simp] theorem modWeb_notices (s : State) (p : PathNo) (f : Web → Web) : (s.modWeb p f).notices = s.notices := rfl
@[simp] theorem modWeb_port (s : State) (p : PathNo) (f : Web → Web) : (s.modWeb p f).port = s.port := rfl
@[simp] theorem modWeb_outputs (s : State) (p : PathNo) (f : Web → Web) : (s.modWeb p f).outputs = s.outputs := rfl
@[simp] theorem modWeb_inputs (s : State) (p : PathNo) (f : Web → Web) : (s.modWeb p f).inputs = s.inputs := rfl
@[simp] theorem modWeb_pending (s : State) (p : PathNo) (f : Web → Web) : (s.modWeb p f).pending = s.pending := rfl

@[simp] theorem modArbiter_phase (s : State) (p : PathNo) (f : Arbiter → Arbiter) : (s.modArbiter p f).phase = s.phase := rfl
@[simp] theorem modArbiter_reels (s : State) (p : PathNo) (f : Arbiter → Arbiter) : (s.modArbiter p f).reels = s.reels := rfl
@[simp] theorem modArbiter_stands (s : State) (p : PathNo) (f : Arbiter → Arbiter) : (s.modArbiter p f).stands = s.stands := rfl
@[simp] theorem modArbiter_watchers (s : State) (p : PathNo) (f : Arbiter → Arbiter) : (s.modArbiter p f).watchers = s.watchers := rfl
@[simp] theorem modArbiter_webs (s : State) (p : PathNo) (f : Arbiter → Arbiter) : (s.modArbiter p f).webs = s.webs := rfl
@[simp] theorem modArbiter_transits (s : State) (p : PathNo) (f : Arbiter → Arbiter) : (s.modArbiter p f).transits = s.transits := rfl
@[simp] theorem modArbiter_profiles (s : State) (p : PathNo) (f : Arbiter → Arbiter) : (s.modArbiter p f).profiles = s.profiles := rfl
@[simp] theorem modArbiter_settings (s : State) (p : PathNo) (f : Arbiter → Arbiter) : (s.modArbiter p f).settings = s.settings := rfl
@[simp] theorem modArbiter_notices (s : State) (p : PathNo) (f : Arbiter → Arbiter) : (s.modArbiter p f).notices = s.notices := rfl
@[simp] theorem modArbiter_port (s : State) (p : PathNo) (f : Arbiter → Arbiter) : (s.modArbiter p f).port = s.port := rfl
@[simp] theorem modArbiter_outputs (s : State) (p : PathNo) (f : Arbiter → Arbiter) : (s.modArbiter p f).outputs = s.outputs := rfl
@[simp] theorem modArbiter_inputs (s : State) (p : PathNo) (f : Arbiter → Arbiter) : (s.modArbiter p f).inputs = s.inputs := rfl
@[simp] theorem modArbiter_pending (s : State) (p : PathNo) (f : Arbiter → Arbiter) : (s.modArbiter p f).pending = s.pending := rfl

@[simp] theorem modTransit_phase (s : State) (p : PathNo) (f : Transit → Transit) : (s.modTransit p f).phase = s.phase := rfl
@[simp] theorem modTransit_reels (s : State) (p : PathNo) (f : Transit → Transit) : (s.modTransit p f).reels = s.reels := rfl
@[simp] theorem modTransit_stands (s : State) (p : PathNo) (f : Transit → Transit) : (s.modTransit p f).stands = s.stands := rfl
@[simp] theorem modTransit_watchers (s : State) (p : PathNo) (f : Transit → Transit) : (s.modTransit p f).watchers = s.watchers := rfl
@[simp] theorem modTransit_webs (s : State) (p : PathNo) (f : Transit → Transit) : (s.modTransit p f).webs = s.webs := rfl
@[simp] theorem modTransit_arbiters (s : State) (p : PathNo) (f : Transit → Transit) : (s.modTransit p f).arbiters = s.arbiters := rfl
@[simp] theorem modTransit_profiles (s : State) (p : PathNo) (f : Transit → Transit) : (s.modTransit p f).profiles = s.profiles := rfl
@[simp] theorem modTransit_settings (s : State) (p : PathNo) (f : Transit → Transit) : (s.modTransit p f).settings = s.settings := rfl
@[simp] theorem modTransit_notices (s : State) (p : PathNo) (f : Transit → Transit) : (s.modTransit p f).notices = s.notices := rfl
@[simp] theorem modTransit_port (s : State) (p : PathNo) (f : Transit → Transit) : (s.modTransit p f).port = s.port := rfl
@[simp] theorem modTransit_outputs (s : State) (p : PathNo) (f : Transit → Transit) : (s.modTransit p f).outputs = s.outputs := rfl
@[simp] theorem modTransit_inputs (s : State) (p : PathNo) (f : Transit → Transit) : (s.modTransit p f).inputs = s.inputs := rfl
@[simp] theorem modTransit_pending (s : State) (p : PathNo) (f : Transit → Transit) : (s.modTransit p f).pending = s.pending := rfl

@[simp] theorem modProfile_phase (s : State) (n : StandNo) (f : StandProfile → StandProfile) : (s.modProfile n f).phase = s.phase := rfl
@[simp] theorem modProfile_reels (s : State) (n : StandNo) (f : StandProfile → StandProfile) : (s.modProfile n f).reels = s.reels := rfl
@[simp] theorem modProfile_stands (s : State) (n : StandNo) (f : StandProfile → StandProfile) : (s.modProfile n f).stands = s.stands := rfl
@[simp] theorem modProfile_watchers (s : State) (n : StandNo) (f : StandProfile → StandProfile) : (s.modProfile n f).watchers = s.watchers := rfl
@[simp] theorem modProfile_webs (s : State) (n : StandNo) (f : StandProfile → StandProfile) : (s.modProfile n f).webs = s.webs := rfl
@[simp] theorem modProfile_arbiters (s : State) (n : StandNo) (f : StandProfile → StandProfile) : (s.modProfile n f).arbiters = s.arbiters := rfl
@[simp] theorem modProfile_transits (s : State) (n : StandNo) (f : StandProfile → StandProfile) : (s.modProfile n f).transits = s.transits := rfl
@[simp] theorem modProfile_settings (s : State) (n : StandNo) (f : StandProfile → StandProfile) : (s.modProfile n f).settings = s.settings := rfl
@[simp] theorem modProfile_notices (s : State) (n : StandNo) (f : StandProfile → StandProfile) : (s.modProfile n f).notices = s.notices := rfl
@[simp] theorem modProfile_port (s : State) (n : StandNo) (f : StandProfile → StandProfile) : (s.modProfile n f).port = s.port := rfl
@[simp] theorem modProfile_outputs (s : State) (n : StandNo) (f : StandProfile → StandProfile) : (s.modProfile n f).outputs = s.outputs := rfl
@[simp] theorem modProfile_inputs (s : State) (n : StandNo) (f : StandProfile → StandProfile) : (s.modProfile n f).inputs = s.inputs := rfl
@[simp] theorem modProfile_pending (s : State) (n : StandNo) (f : StandProfile → StandProfile) : (s.modProfile n f).pending = s.pending := rfl

@[simp] theorem setSetting_phase (s : State) (p : PathNo) (g : PathSettings) : (s.setSetting p g).phase = s.phase := rfl
@[simp] theorem setSetting_reels (s : State) (p : PathNo) (g : PathSettings) : (s.setSetting p g).reels = s.reels := rfl
@[simp] theorem setSetting_stands (s : State) (p : PathNo) (g : PathSettings) : (s.setSetting p g).stands = s.stands := rfl
@[simp] theorem setSetting_watchers (s : State) (p : PathNo) (g : PathSettings) : (s.setSetting p g).watchers = s.watchers := rfl
@[simp] theorem setSetting_webs (s : State) (p : PathNo) (g : PathSettings) : (s.setSetting p g).webs = s.webs := rfl
@[simp] theorem setSetting_arbiters (s : State) (p : PathNo) (g : PathSettings) : (s.setSetting p g).arbiters = s.arbiters := rfl
@[simp] theorem setSetting_transits (s : State) (p : PathNo) (g : PathSettings) : (s.setSetting p g).transits = s.transits := rfl
@[simp] theorem setSetting_profiles (s : State) (p : PathNo) (g : PathSettings) : (s.setSetting p g).profiles = s.profiles := rfl
@[simp] theorem setSetting_notices (s : State) (p : PathNo) (g : PathSettings) : (s.setSetting p g).notices = s.notices := rfl
@[simp] theorem setSetting_port (s : State) (p : PathNo) (g : PathSettings) : (s.setSetting p g).port = s.port := rfl
@[simp] theorem setSetting_outputs (s : State) (p : PathNo) (g : PathSettings) : (s.setSetting p g).outputs = s.outputs := rfl
@[simp] theorem setSetting_inputs (s : State) (p : PathNo) (g : PathSettings) : (s.setSetting p g).inputs = s.inputs := rfl
@[simp] theorem setSetting_pending (s : State) (p : PathNo) (g : PathSettings) : (s.setSetting p g).pending = s.pending := rfl

@[simp] theorem modOutputs_phase (s : State) (n : StandNo) (f : Outputs → Outputs) : (s.modOutputs n f).phase = s.phase := rfl
@[simp] theorem modOutputs_reels (s : State) (n : StandNo) (f : Outputs → Outputs) : (s.modOutputs n f).reels = s.reels := rfl
@[simp] theorem modOutputs_stands (s : State) (n : StandNo) (f : Outputs → Outputs) : (s.modOutputs n f).stands = s.stands := rfl
@[simp] theorem modOutputs_watchers (s : State) (n : StandNo) (f : Outputs → Outputs) : (s.modOutputs n f).watchers = s.watchers := rfl
@[simp] theorem modOutputs_webs (s : State) (n : StandNo) (f : Outputs → Outputs) : (s.modOutputs n f).webs = s.webs := rfl
@[simp] theorem modOutputs_arbiters (s : State) (n : StandNo) (f : Outputs → Outputs) : (s.modOutputs n f).arbiters = s.arbiters := rfl
@[simp] theorem modOutputs_transits (s : State) (n : StandNo) (f : Outputs → Outputs) : (s.modOutputs n f).transits = s.transits := rfl
@[simp] theorem modOutputs_profiles (s : State) (n : StandNo) (f : Outputs → Outputs) : (s.modOutputs n f).profiles = s.profiles := rfl
@[simp] theorem modOutputs_settings (s : State) (n : StandNo) (f : Outputs → Outputs) : (s.modOutputs n f).settings = s.settings := rfl
@[simp] theorem modOutputs_notices (s : State) (n : StandNo) (f : Outputs → Outputs) : (s.modOutputs n f).notices = s.notices := rfl
@[simp] theorem modOutputs_port (s : State) (n : StandNo) (f : Outputs → Outputs) : (s.modOutputs n f).port = s.port := rfl
@[simp] theorem modOutputs_inputs (s : State) (n : StandNo) (f : Outputs → Outputs) : (s.modOutputs n f).inputs = s.inputs := rfl
@[simp] theorem modOutputs_pending (s : State) (n : StandNo) (f : Outputs → Outputs) : (s.modOutputs n f).pending = s.pending := rfl

@[simp] theorem modInputs_phase (s : State) (n : StandNo) (f : Inputs → Inputs) : (s.modInputs n f).phase = s.phase := rfl
@[simp] theorem modInputs_reels (s : State) (n : StandNo) (f : Inputs → Inputs) : (s.modInputs n f).reels = s.reels := rfl
@[simp] theorem modInputs_stands (s : State) (n : StandNo) (f : Inputs → Inputs) : (s.modInputs n f).stands = s.stands := rfl
@[simp] theorem modInputs_watchers (s : State) (n : StandNo) (f : Inputs → Inputs) : (s.modInputs n f).watchers = s.watchers := rfl
@[simp] theorem modInputs_webs (s : State) (n : StandNo) (f : Inputs → Inputs) : (s.modInputs n f).webs = s.webs := rfl
@[simp] theorem modInputs_arbiters (s : State) (n : StandNo) (f : Inputs → Inputs) : (s.modInputs n f).arbiters = s.arbiters := rfl
@[simp] theorem modInputs_transits (s : State) (n : StandNo) (f : Inputs → Inputs) : (s.modInputs n f).transits = s.transits := rfl
@[simp] theorem modInputs_profiles (s : State) (n : StandNo) (f : Inputs → Inputs) : (s.modInputs n f).profiles = s.profiles := rfl
@[simp] theorem modInputs_settings (s : State) (n : StandNo) (f : Inputs → Inputs) : (s.modInputs n f).settings = s.settings := rfl
@[simp] theorem modInputs_notices (s : State) (n : StandNo) (f : Inputs → Inputs) : (s.modInputs n f).notices = s.notices := rfl
@[simp] theorem modInputs_port (s : State) (n : StandNo) (f : Inputs → Inputs) : (s.modInputs n f).port = s.port := rfl
@[simp] theorem modInputs_outputs (s : State) (n : StandNo) (f : Inputs → Inputs) : (s.modInputs n f).outputs = s.outputs := rfl
@[simp] theorem modInputs_pending (s : State) (n : StandNo) (f : Inputs → Inputs) : (s.modInputs n f).pending = s.pending := rfl

@[simp] theorem modNotices_phase (s : State) (f : NoticeUnit → NoticeUnit) : (s.modNotices f).phase = s.phase := rfl
@[simp] theorem modNotices_reels (s : State) (f : NoticeUnit → NoticeUnit) : (s.modNotices f).reels = s.reels := rfl
@[simp] theorem modNotices_stands (s : State) (f : NoticeUnit → NoticeUnit) : (s.modNotices f).stands = s.stands := rfl
@[simp] theorem modNotices_watchers (s : State) (f : NoticeUnit → NoticeUnit) : (s.modNotices f).watchers = s.watchers := rfl
@[simp] theorem modNotices_webs (s : State) (f : NoticeUnit → NoticeUnit) : (s.modNotices f).webs = s.webs := rfl
@[simp] theorem modNotices_arbiters (s : State) (f : NoticeUnit → NoticeUnit) : (s.modNotices f).arbiters = s.arbiters := rfl
@[simp] theorem modNotices_transits (s : State) (f : NoticeUnit → NoticeUnit) : (s.modNotices f).transits = s.transits := rfl
@[simp] theorem modNotices_profiles (s : State) (f : NoticeUnit → NoticeUnit) : (s.modNotices f).profiles = s.profiles := rfl
@[simp] theorem modNotices_settings (s : State) (f : NoticeUnit → NoticeUnit) : (s.modNotices f).settings = s.settings := rfl
@[simp] theorem modNotices_port (s : State) (f : NoticeUnit → NoticeUnit) : (s.modNotices f).port = s.port := rfl
@[simp] theorem modNotices_outputs (s : State) (f : NoticeUnit → NoticeUnit) : (s.modNotices f).outputs = s.outputs := rfl
@[simp] theorem modNotices_inputs (s : State) (f : NoticeUnit → NoticeUnit) : (s.modNotices f).inputs = s.inputs := rfl
@[simp] theorem modNotices_pending (s : State) (f : NoticeUnit → NoticeUnit) : (s.modNotices f).pending = s.pending := rfl

@[simp] theorem modPort_phase (s : State) (f : Port → Port) : (s.modPort f).phase = s.phase := rfl
@[simp] theorem modPort_reels (s : State) (f : Port → Port) : (s.modPort f).reels = s.reels := rfl
@[simp] theorem modPort_stands (s : State) (f : Port → Port) : (s.modPort f).stands = s.stands := rfl
@[simp] theorem modPort_watchers (s : State) (f : Port → Port) : (s.modPort f).watchers = s.watchers := rfl
@[simp] theorem modPort_webs (s : State) (f : Port → Port) : (s.modPort f).webs = s.webs := rfl
@[simp] theorem modPort_arbiters (s : State) (f : Port → Port) : (s.modPort f).arbiters = s.arbiters := rfl
@[simp] theorem modPort_transits (s : State) (f : Port → Port) : (s.modPort f).transits = s.transits := rfl
@[simp] theorem modPort_profiles (s : State) (f : Port → Port) : (s.modPort f).profiles = s.profiles := rfl
@[simp] theorem modPort_settings (s : State) (f : Port → Port) : (s.modPort f).settings = s.settings := rfl
@[simp] theorem modPort_notices (s : State) (f : Port → Port) : (s.modPort f).notices = s.notices := rfl
@[simp] theorem modPort_outputs (s : State) (f : Port → Port) : (s.modPort f).outputs = s.outputs := rfl
@[simp] theorem modPort_inputs (s : State) (f : Port → Port) : (s.modPort f).inputs = s.inputs := rfl
@[simp] theorem modPort_pending (s : State) (f : Port → Port) : (s.modPort f).pending = s.pending := rfl

@[simp] theorem withPending_phase (s : State) (q : List Instr) : (s.withPending q).phase = s.phase := rfl
@[simp] theorem withPending_reels (s : State) (q : List Instr) : (s.withPending q).reels = s.reels := rfl
@[simp] theorem withPending_stands (s : State) (q : List Instr) : (s.withPending q).stands = s.stands := rfl
@[simp] theorem withPending_watchers (s : State) (q : List Instr) : (s.withPending q).watchers = s.watchers := rfl
@[simp] theorem withPending_webs (s : State) (q : List Instr) : (s.withPending q).webs = s.webs := rfl
@[simp] theorem withPending_arbiters (s : State) (q : List Instr) : (s.withPending q).arbiters = s.arbiters := rfl
@[simp] theorem withPending_transits (s : State) (q : List Instr) : (s.withPending q).transits = s.transits := rfl
@[simp] theorem withPending_profiles (s : State) (q : List Instr) : (s.withPending q).profiles = s.profiles := rfl
@[simp] theorem withPending_settings (s : State) (q : List Instr) : (s.withPending q).settings = s.settings := rfl
@[simp] theorem withPending_notices (s : State) (q : List Instr) : (s.withPending q).notices = s.notices := rfl
@[simp] theorem withPending_port (s : State) (q : List Instr) : (s.withPending q).port = s.port := rfl
@[simp] theorem withPending_outputs (s : State) (q : List Instr) : (s.withPending q).outputs = s.outputs := rfl
@[simp] theorem withPending_inputs (s : State) (q : List Instr) : (s.withPending q).inputs = s.inputs := rfl

/-! ### The readings that an update leaves -/

@[simp] theorem setReel_stand (s : State) (h : Handle) (r : Option Reel) (i : StandNo) : (s.setReel h r).stand i = s.stand i := rfl
@[simp] theorem setReel_watcher (s : State) (h : Handle) (r : Option Reel) (i : StandNo) : (s.setReel h r).watcher i = s.watcher i := rfl
@[simp] theorem setReel_web (s : State) (h : Handle) (r : Option Reel) (i : PathNo) : (s.setReel h r).web i = s.web i := rfl
@[simp] theorem setReel_arbiter (s : State) (h : Handle) (r : Option Reel) (i : PathNo) : (s.setReel h r).arbiter i = s.arbiter i := rfl
@[simp] theorem setReel_transit (s : State) (h : Handle) (r : Option Reel) (i : PathNo) : (s.setReel h r).transit i = s.transit i := rfl
@[simp] theorem setReel_profile (s : State) (h : Handle) (r : Option Reel) (i : StandNo) : (s.setReel h r).profile i = s.profile i := rfl
@[simp] theorem setReel_working (s : State) (h : Handle) (r : Option Reel) (i : StandNo) : (s.setReel h r).working i = s.working i := rfl
@[simp] theorem setReel_setting (s : State) (h : Handle) (r : Option Reel) (i : PathNo) : (s.setReel h r).setting i = s.setting i := rfl
@[simp] theorem setReel_output (s : State) (h : Handle) (r : Option Reel) (i : StandNo) : (s.setReel h r).output i = s.output i := rfl
@[simp] theorem setReel_standInputs (s : State) (h : Handle) (r : Option Reel) (i : StandNo) : (s.setReel h r).standInputs i = s.standInputs i := rfl
@[simp] theorem setReel_pathOf (s : State) (h : Handle) (r : Option Reel) (i : StandNo) : (s.setReel h r).pathOf i = s.pathOf i := rfl
@[simp] theorem setReel_countOf (s : State) (h : Handle) (r : Option Reel) (i : StandNo) : (s.setReel h r).countOf i = s.countOf i := rfl

@[simp] theorem modReel_stand (s : State) (h : Handle) (f : Reel → Reel) (i : StandNo) : (s.modReel h f).stand i = s.stand i := rfl
@[simp] theorem modReel_watcher (s : State) (h : Handle) (f : Reel → Reel) (i : StandNo) : (s.modReel h f).watcher i = s.watcher i := rfl
@[simp] theorem modReel_web (s : State) (h : Handle) (f : Reel → Reel) (i : PathNo) : (s.modReel h f).web i = s.web i := rfl
@[simp] theorem modReel_arbiter (s : State) (h : Handle) (f : Reel → Reel) (i : PathNo) : (s.modReel h f).arbiter i = s.arbiter i := rfl
@[simp] theorem modReel_transit (s : State) (h : Handle) (f : Reel → Reel) (i : PathNo) : (s.modReel h f).transit i = s.transit i := rfl
@[simp] theorem modReel_profile (s : State) (h : Handle) (f : Reel → Reel) (i : StandNo) : (s.modReel h f).profile i = s.profile i := rfl
@[simp] theorem modReel_working (s : State) (h : Handle) (f : Reel → Reel) (i : StandNo) : (s.modReel h f).working i = s.working i := rfl
@[simp] theorem modReel_setting (s : State) (h : Handle) (f : Reel → Reel) (i : PathNo) : (s.modReel h f).setting i = s.setting i := rfl
@[simp] theorem modReel_output (s : State) (h : Handle) (f : Reel → Reel) (i : StandNo) : (s.modReel h f).output i = s.output i := rfl
@[simp] theorem modReel_standInputs (s : State) (h : Handle) (f : Reel → Reel) (i : StandNo) : (s.modReel h f).standInputs i = s.standInputs i := rfl
@[simp] theorem modReel_pathOf (s : State) (h : Handle) (f : Reel → Reel) (i : StandNo) : (s.modReel h f).pathOf i = s.pathOf i := rfl
@[simp] theorem modReel_countOf (s : State) (h : Handle) (f : Reel → Reel) (i : StandNo) : (s.modReel h f).countOf i = s.countOf i := rfl

@[simp] theorem modStand_reel (s : State) (n : StandNo) (f : Stand → Stand) (i : Handle) : (s.modStand n f).reel i = s.reel i := rfl
@[simp] theorem modStand_watcher (s : State) (n : StandNo) (f : Stand → Stand) (i : StandNo) : (s.modStand n f).watcher i = s.watcher i := rfl
@[simp] theorem modStand_web (s : State) (n : StandNo) (f : Stand → Stand) (i : PathNo) : (s.modStand n f).web i = s.web i := rfl
@[simp] theorem modStand_arbiter (s : State) (n : StandNo) (f : Stand → Stand) (i : PathNo) : (s.modStand n f).arbiter i = s.arbiter i := rfl
@[simp] theorem modStand_transit (s : State) (n : StandNo) (f : Stand → Stand) (i : PathNo) : (s.modStand n f).transit i = s.transit i := rfl
@[simp] theorem modStand_profile (s : State) (n : StandNo) (f : Stand → Stand) (i : StandNo) : (s.modStand n f).profile i = s.profile i := rfl
@[simp] theorem modStand_working (s : State) (n : StandNo) (f : Stand → Stand) (i : StandNo) : (s.modStand n f).working i = s.working i := rfl
@[simp] theorem modStand_setting (s : State) (n : StandNo) (f : Stand → Stand) (i : PathNo) : (s.modStand n f).setting i = s.setting i := rfl
@[simp] theorem modStand_output (s : State) (n : StandNo) (f : Stand → Stand) (i : StandNo) : (s.modStand n f).output i = s.output i := rfl
@[simp] theorem modStand_standInputs (s : State) (n : StandNo) (f : Stand → Stand) (i : StandNo) : (s.modStand n f).standInputs i = s.standInputs i := rfl
@[simp] theorem modStand_pathOf (s : State) (n : StandNo) (f : Stand → Stand) (i : StandNo) : (s.modStand n f).pathOf i = s.pathOf i := rfl
@[simp] theorem modStand_countOf (s : State) (n : StandNo) (f : Stand → Stand) (i : StandNo) : (s.modStand n f).countOf i = s.countOf i := rfl

@[simp] theorem modWatcher_reel (s : State) (n : StandNo) (f : Watcher → Watcher) (i : Handle) : (s.modWatcher n f).reel i = s.reel i := rfl
@[simp] theorem modWatcher_stand (s : State) (n : StandNo) (f : Watcher → Watcher) (i : StandNo) : (s.modWatcher n f).stand i = s.stand i := rfl
@[simp] theorem modWatcher_web (s : State) (n : StandNo) (f : Watcher → Watcher) (i : PathNo) : (s.modWatcher n f).web i = s.web i := rfl
@[simp] theorem modWatcher_arbiter (s : State) (n : StandNo) (f : Watcher → Watcher) (i : PathNo) : (s.modWatcher n f).arbiter i = s.arbiter i := rfl
@[simp] theorem modWatcher_transit (s : State) (n : StandNo) (f : Watcher → Watcher) (i : PathNo) : (s.modWatcher n f).transit i = s.transit i := rfl
@[simp] theorem modWatcher_profile (s : State) (n : StandNo) (f : Watcher → Watcher) (i : StandNo) : (s.modWatcher n f).profile i = s.profile i := rfl
@[simp] theorem modWatcher_working (s : State) (n : StandNo) (f : Watcher → Watcher) (i : StandNo) : (s.modWatcher n f).working i = s.working i := rfl
@[simp] theorem modWatcher_setting (s : State) (n : StandNo) (f : Watcher → Watcher) (i : PathNo) : (s.modWatcher n f).setting i = s.setting i := rfl
@[simp] theorem modWatcher_output (s : State) (n : StandNo) (f : Watcher → Watcher) (i : StandNo) : (s.modWatcher n f).output i = s.output i := rfl
@[simp] theorem modWatcher_standInputs (s : State) (n : StandNo) (f : Watcher → Watcher) (i : StandNo) : (s.modWatcher n f).standInputs i = s.standInputs i := rfl
@[simp] theorem modWatcher_pathOf (s : State) (n : StandNo) (f : Watcher → Watcher) (i : StandNo) : (s.modWatcher n f).pathOf i = s.pathOf i := rfl
@[simp] theorem modWatcher_countOf (s : State) (n : StandNo) (f : Watcher → Watcher) (i : StandNo) : (s.modWatcher n f).countOf i = s.countOf i := rfl

@[simp] theorem modWeb_reel (s : State) (p : PathNo) (f : Web → Web) (i : Handle) : (s.modWeb p f).reel i = s.reel i := rfl
@[simp] theorem modWeb_stand (s : State) (p : PathNo) (f : Web → Web) (i : StandNo) : (s.modWeb p f).stand i = s.stand i := rfl
@[simp] theorem modWeb_watcher (s : State) (p : PathNo) (f : Web → Web) (i : StandNo) : (s.modWeb p f).watcher i = s.watcher i := rfl
@[simp] theorem modWeb_arbiter (s : State) (p : PathNo) (f : Web → Web) (i : PathNo) : (s.modWeb p f).arbiter i = s.arbiter i := rfl
@[simp] theorem modWeb_transit (s : State) (p : PathNo) (f : Web → Web) (i : PathNo) : (s.modWeb p f).transit i = s.transit i := rfl
@[simp] theorem modWeb_profile (s : State) (p : PathNo) (f : Web → Web) (i : StandNo) : (s.modWeb p f).profile i = s.profile i := rfl
@[simp] theorem modWeb_working (s : State) (p : PathNo) (f : Web → Web) (i : StandNo) : (s.modWeb p f).working i = s.working i := rfl
@[simp] theorem modWeb_setting (s : State) (p : PathNo) (f : Web → Web) (i : PathNo) : (s.modWeb p f).setting i = s.setting i := rfl
@[simp] theorem modWeb_output (s : State) (p : PathNo) (f : Web → Web) (i : StandNo) : (s.modWeb p f).output i = s.output i := rfl
@[simp] theorem modWeb_standInputs (s : State) (p : PathNo) (f : Web → Web) (i : StandNo) : (s.modWeb p f).standInputs i = s.standInputs i := rfl
@[simp] theorem modWeb_pathOf (s : State) (p : PathNo) (f : Web → Web) (i : StandNo) : (s.modWeb p f).pathOf i = s.pathOf i := rfl

@[simp] theorem modArbiter_reel (s : State) (p : PathNo) (f : Arbiter → Arbiter) (i : Handle) : (s.modArbiter p f).reel i = s.reel i := rfl
@[simp] theorem modArbiter_stand (s : State) (p : PathNo) (f : Arbiter → Arbiter) (i : StandNo) : (s.modArbiter p f).stand i = s.stand i := rfl
@[simp] theorem modArbiter_watcher (s : State) (p : PathNo) (f : Arbiter → Arbiter) (i : StandNo) : (s.modArbiter p f).watcher i = s.watcher i := rfl
@[simp] theorem modArbiter_web (s : State) (p : PathNo) (f : Arbiter → Arbiter) (i : PathNo) : (s.modArbiter p f).web i = s.web i := rfl
@[simp] theorem modArbiter_transit (s : State) (p : PathNo) (f : Arbiter → Arbiter) (i : PathNo) : (s.modArbiter p f).transit i = s.transit i := rfl
@[simp] theorem modArbiter_profile (s : State) (p : PathNo) (f : Arbiter → Arbiter) (i : StandNo) : (s.modArbiter p f).profile i = s.profile i := rfl
@[simp] theorem modArbiter_working (s : State) (p : PathNo) (f : Arbiter → Arbiter) (i : StandNo) : (s.modArbiter p f).working i = s.working i := rfl
@[simp] theorem modArbiter_setting (s : State) (p : PathNo) (f : Arbiter → Arbiter) (i : PathNo) : (s.modArbiter p f).setting i = s.setting i := rfl
@[simp] theorem modArbiter_output (s : State) (p : PathNo) (f : Arbiter → Arbiter) (i : StandNo) : (s.modArbiter p f).output i = s.output i := rfl
@[simp] theorem modArbiter_standInputs (s : State) (p : PathNo) (f : Arbiter → Arbiter) (i : StandNo) : (s.modArbiter p f).standInputs i = s.standInputs i := rfl
@[simp] theorem modArbiter_pathOf (s : State) (p : PathNo) (f : Arbiter → Arbiter) (i : StandNo) : (s.modArbiter p f).pathOf i = s.pathOf i := rfl
@[simp] theorem modArbiter_countOf (s : State) (p : PathNo) (f : Arbiter → Arbiter) (i : StandNo) : (s.modArbiter p f).countOf i = s.countOf i := rfl

@[simp] theorem modTransit_reel (s : State) (p : PathNo) (f : Transit → Transit) (i : Handle) : (s.modTransit p f).reel i = s.reel i := rfl
@[simp] theorem modTransit_stand (s : State) (p : PathNo) (f : Transit → Transit) (i : StandNo) : (s.modTransit p f).stand i = s.stand i := rfl
@[simp] theorem modTransit_watcher (s : State) (p : PathNo) (f : Transit → Transit) (i : StandNo) : (s.modTransit p f).watcher i = s.watcher i := rfl
@[simp] theorem modTransit_web (s : State) (p : PathNo) (f : Transit → Transit) (i : PathNo) : (s.modTransit p f).web i = s.web i := rfl
@[simp] theorem modTransit_arbiter (s : State) (p : PathNo) (f : Transit → Transit) (i : PathNo) : (s.modTransit p f).arbiter i = s.arbiter i := rfl
@[simp] theorem modTransit_profile (s : State) (p : PathNo) (f : Transit → Transit) (i : StandNo) : (s.modTransit p f).profile i = s.profile i := rfl
@[simp] theorem modTransit_working (s : State) (p : PathNo) (f : Transit → Transit) (i : StandNo) : (s.modTransit p f).working i = s.working i := rfl
@[simp] theorem modTransit_setting (s : State) (p : PathNo) (f : Transit → Transit) (i : PathNo) : (s.modTransit p f).setting i = s.setting i := rfl
@[simp] theorem modTransit_output (s : State) (p : PathNo) (f : Transit → Transit) (i : StandNo) : (s.modTransit p f).output i = s.output i := rfl
@[simp] theorem modTransit_standInputs (s : State) (p : PathNo) (f : Transit → Transit) (i : StandNo) : (s.modTransit p f).standInputs i = s.standInputs i := rfl
@[simp] theorem modTransit_pathOf (s : State) (p : PathNo) (f : Transit → Transit) (i : StandNo) : (s.modTransit p f).pathOf i = s.pathOf i := rfl
@[simp] theorem modTransit_countOf (s : State) (p : PathNo) (f : Transit → Transit) (i : StandNo) : (s.modTransit p f).countOf i = s.countOf i := rfl

@[simp] theorem modProfile_reel (s : State) (n : StandNo) (f : StandProfile → StandProfile) (i : Handle) : (s.modProfile n f).reel i = s.reel i := rfl
@[simp] theorem modProfile_stand (s : State) (n : StandNo) (f : StandProfile → StandProfile) (i : StandNo) : (s.modProfile n f).stand i = s.stand i := rfl
@[simp] theorem modProfile_watcher (s : State) (n : StandNo) (f : StandProfile → StandProfile) (i : StandNo) : (s.modProfile n f).watcher i = s.watcher i := rfl
@[simp] theorem modProfile_web (s : State) (n : StandNo) (f : StandProfile → StandProfile) (i : PathNo) : (s.modProfile n f).web i = s.web i := rfl
@[simp] theorem modProfile_arbiter (s : State) (n : StandNo) (f : StandProfile → StandProfile) (i : PathNo) : (s.modProfile n f).arbiter i = s.arbiter i := rfl
@[simp] theorem modProfile_transit (s : State) (n : StandNo) (f : StandProfile → StandProfile) (i : PathNo) : (s.modProfile n f).transit i = s.transit i := rfl
@[simp] theorem modProfile_setting (s : State) (n : StandNo) (f : StandProfile → StandProfile) (i : PathNo) : (s.modProfile n f).setting i = s.setting i := rfl
@[simp] theorem modProfile_output (s : State) (n : StandNo) (f : StandProfile → StandProfile) (i : StandNo) : (s.modProfile n f).output i = s.output i := rfl
@[simp] theorem modProfile_standInputs (s : State) (n : StandNo) (f : StandProfile → StandProfile) (i : StandNo) : (s.modProfile n f).standInputs i = s.standInputs i := rfl

@[simp] theorem setSetting_reel (s : State) (p : PathNo) (g : PathSettings) (i : Handle) : (s.setSetting p g).reel i = s.reel i := rfl
@[simp] theorem setSetting_stand (s : State) (p : PathNo) (g : PathSettings) (i : StandNo) : (s.setSetting p g).stand i = s.stand i := rfl
@[simp] theorem setSetting_watcher (s : State) (p : PathNo) (g : PathSettings) (i : StandNo) : (s.setSetting p g).watcher i = s.watcher i := rfl
@[simp] theorem setSetting_web (s : State) (p : PathNo) (g : PathSettings) (i : PathNo) : (s.setSetting p g).web i = s.web i := rfl
@[simp] theorem setSetting_arbiter (s : State) (p : PathNo) (g : PathSettings) (i : PathNo) : (s.setSetting p g).arbiter i = s.arbiter i := rfl
@[simp] theorem setSetting_transit (s : State) (p : PathNo) (g : PathSettings) (i : PathNo) : (s.setSetting p g).transit i = s.transit i := rfl
@[simp] theorem setSetting_profile (s : State) (p : PathNo) (g : PathSettings) (i : StandNo) : (s.setSetting p g).profile i = s.profile i := rfl
@[simp] theorem setSetting_working (s : State) (p : PathNo) (g : PathSettings) (i : StandNo) : (s.setSetting p g).working i = s.working i := rfl
@[simp] theorem setSetting_output (s : State) (p : PathNo) (g : PathSettings) (i : StandNo) : (s.setSetting p g).output i = s.output i := rfl
@[simp] theorem setSetting_standInputs (s : State) (p : PathNo) (g : PathSettings) (i : StandNo) : (s.setSetting p g).standInputs i = s.standInputs i := rfl
@[simp] theorem setSetting_pathOf (s : State) (p : PathNo) (g : PathSettings) (i : StandNo) : (s.setSetting p g).pathOf i = s.pathOf i := rfl
@[simp] theorem setSetting_countOf (s : State) (p : PathNo) (g : PathSettings) (i : StandNo) : (s.setSetting p g).countOf i = s.countOf i := rfl

@[simp] theorem modOutputs_reel (s : State) (n : StandNo) (f : Outputs → Outputs) (i : Handle) : (s.modOutputs n f).reel i = s.reel i := rfl
@[simp] theorem modOutputs_stand (s : State) (n : StandNo) (f : Outputs → Outputs) (i : StandNo) : (s.modOutputs n f).stand i = s.stand i := rfl
@[simp] theorem modOutputs_watcher (s : State) (n : StandNo) (f : Outputs → Outputs) (i : StandNo) : (s.modOutputs n f).watcher i = s.watcher i := rfl
@[simp] theorem modOutputs_web (s : State) (n : StandNo) (f : Outputs → Outputs) (i : PathNo) : (s.modOutputs n f).web i = s.web i := rfl
@[simp] theorem modOutputs_arbiter (s : State) (n : StandNo) (f : Outputs → Outputs) (i : PathNo) : (s.modOutputs n f).arbiter i = s.arbiter i := rfl
@[simp] theorem modOutputs_transit (s : State) (n : StandNo) (f : Outputs → Outputs) (i : PathNo) : (s.modOutputs n f).transit i = s.transit i := rfl
@[simp] theorem modOutputs_profile (s : State) (n : StandNo) (f : Outputs → Outputs) (i : StandNo) : (s.modOutputs n f).profile i = s.profile i := rfl
@[simp] theorem modOutputs_working (s : State) (n : StandNo) (f : Outputs → Outputs) (i : StandNo) : (s.modOutputs n f).working i = s.working i := rfl
@[simp] theorem modOutputs_setting (s : State) (n : StandNo) (f : Outputs → Outputs) (i : PathNo) : (s.modOutputs n f).setting i = s.setting i := rfl
@[simp] theorem modOutputs_standInputs (s : State) (n : StandNo) (f : Outputs → Outputs) (i : StandNo) : (s.modOutputs n f).standInputs i = s.standInputs i := rfl
@[simp] theorem modOutputs_pathOf (s : State) (n : StandNo) (f : Outputs → Outputs) (i : StandNo) : (s.modOutputs n f).pathOf i = s.pathOf i := rfl
@[simp] theorem modOutputs_countOf (s : State) (n : StandNo) (f : Outputs → Outputs) (i : StandNo) : (s.modOutputs n f).countOf i = s.countOf i := rfl

@[simp] theorem modInputs_reel (s : State) (n : StandNo) (f : Inputs → Inputs) (i : Handle) : (s.modInputs n f).reel i = s.reel i := rfl
@[simp] theorem modInputs_stand (s : State) (n : StandNo) (f : Inputs → Inputs) (i : StandNo) : (s.modInputs n f).stand i = s.stand i := rfl
@[simp] theorem modInputs_watcher (s : State) (n : StandNo) (f : Inputs → Inputs) (i : StandNo) : (s.modInputs n f).watcher i = s.watcher i := rfl
@[simp] theorem modInputs_web (s : State) (n : StandNo) (f : Inputs → Inputs) (i : PathNo) : (s.modInputs n f).web i = s.web i := rfl
@[simp] theorem modInputs_arbiter (s : State) (n : StandNo) (f : Inputs → Inputs) (i : PathNo) : (s.modInputs n f).arbiter i = s.arbiter i := rfl
@[simp] theorem modInputs_transit (s : State) (n : StandNo) (f : Inputs → Inputs) (i : PathNo) : (s.modInputs n f).transit i = s.transit i := rfl
@[simp] theorem modInputs_profile (s : State) (n : StandNo) (f : Inputs → Inputs) (i : StandNo) : (s.modInputs n f).profile i = s.profile i := rfl
@[simp] theorem modInputs_working (s : State) (n : StandNo) (f : Inputs → Inputs) (i : StandNo) : (s.modInputs n f).working i = s.working i := rfl
@[simp] theorem modInputs_setting (s : State) (n : StandNo) (f : Inputs → Inputs) (i : PathNo) : (s.modInputs n f).setting i = s.setting i := rfl
@[simp] theorem modInputs_output (s : State) (n : StandNo) (f : Inputs → Inputs) (i : StandNo) : (s.modInputs n f).output i = s.output i := rfl
@[simp] theorem modInputs_pathOf (s : State) (n : StandNo) (f : Inputs → Inputs) (i : StandNo) : (s.modInputs n f).pathOf i = s.pathOf i := rfl
@[simp] theorem modInputs_countOf (s : State) (n : StandNo) (f : Inputs → Inputs) (i : StandNo) : (s.modInputs n f).countOf i = s.countOf i := rfl

@[simp] theorem modNotices_reel (s : State) (f : NoticeUnit → NoticeUnit) (i : Handle) : (s.modNotices f).reel i = s.reel i := rfl
@[simp] theorem modNotices_stand (s : State) (f : NoticeUnit → NoticeUnit) (i : StandNo) : (s.modNotices f).stand i = s.stand i := rfl
@[simp] theorem modNotices_watcher (s : State) (f : NoticeUnit → NoticeUnit) (i : StandNo) : (s.modNotices f).watcher i = s.watcher i := rfl
@[simp] theorem modNotices_web (s : State) (f : NoticeUnit → NoticeUnit) (i : PathNo) : (s.modNotices f).web i = s.web i := rfl
@[simp] theorem modNotices_arbiter (s : State) (f : NoticeUnit → NoticeUnit) (i : PathNo) : (s.modNotices f).arbiter i = s.arbiter i := rfl
@[simp] theorem modNotices_transit (s : State) (f : NoticeUnit → NoticeUnit) (i : PathNo) : (s.modNotices f).transit i = s.transit i := rfl
@[simp] theorem modNotices_profile (s : State) (f : NoticeUnit → NoticeUnit) (i : StandNo) : (s.modNotices f).profile i = s.profile i := rfl
@[simp] theorem modNotices_working (s : State) (f : NoticeUnit → NoticeUnit) (i : StandNo) : (s.modNotices f).working i = s.working i := rfl
@[simp] theorem modNotices_setting (s : State) (f : NoticeUnit → NoticeUnit) (i : PathNo) : (s.modNotices f).setting i = s.setting i := rfl
@[simp] theorem modNotices_output (s : State) (f : NoticeUnit → NoticeUnit) (i : StandNo) : (s.modNotices f).output i = s.output i := rfl
@[simp] theorem modNotices_standInputs (s : State) (f : NoticeUnit → NoticeUnit) (i : StandNo) : (s.modNotices f).standInputs i = s.standInputs i := rfl
@[simp] theorem modNotices_pathOf (s : State) (f : NoticeUnit → NoticeUnit) (i : StandNo) : (s.modNotices f).pathOf i = s.pathOf i := rfl
@[simp] theorem modNotices_countOf (s : State) (f : NoticeUnit → NoticeUnit) (i : StandNo) : (s.modNotices f).countOf i = s.countOf i := rfl

@[simp] theorem modPort_reel (s : State) (f : Port → Port) (i : Handle) : (s.modPort f).reel i = s.reel i := rfl
@[simp] theorem modPort_stand (s : State) (f : Port → Port) (i : StandNo) : (s.modPort f).stand i = s.stand i := rfl
@[simp] theorem modPort_watcher (s : State) (f : Port → Port) (i : StandNo) : (s.modPort f).watcher i = s.watcher i := rfl
@[simp] theorem modPort_web (s : State) (f : Port → Port) (i : PathNo) : (s.modPort f).web i = s.web i := rfl
@[simp] theorem modPort_arbiter (s : State) (f : Port → Port) (i : PathNo) : (s.modPort f).arbiter i = s.arbiter i := rfl
@[simp] theorem modPort_transit (s : State) (f : Port → Port) (i : PathNo) : (s.modPort f).transit i = s.transit i := rfl
@[simp] theorem modPort_profile (s : State) (f : Port → Port) (i : StandNo) : (s.modPort f).profile i = s.profile i := rfl
@[simp] theorem modPort_working (s : State) (f : Port → Port) (i : StandNo) : (s.modPort f).working i = s.working i := rfl
@[simp] theorem modPort_setting (s : State) (f : Port → Port) (i : PathNo) : (s.modPort f).setting i = s.setting i := rfl
@[simp] theorem modPort_output (s : State) (f : Port → Port) (i : StandNo) : (s.modPort f).output i = s.output i := rfl
@[simp] theorem modPort_standInputs (s : State) (f : Port → Port) (i : StandNo) : (s.modPort f).standInputs i = s.standInputs i := rfl
@[simp] theorem modPort_pathOf (s : State) (f : Port → Port) (i : StandNo) : (s.modPort f).pathOf i = s.pathOf i := rfl
@[simp] theorem modPort_countOf (s : State) (f : Port → Port) (i : StandNo) : (s.modPort f).countOf i = s.countOf i := rfl

@[simp] theorem withPending_reel (s : State) (q : List Instr) (i : Handle) : (s.withPending q).reel i = s.reel i := rfl
@[simp] theorem withPending_stand (s : State) (q : List Instr) (i : StandNo) : (s.withPending q).stand i = s.stand i := rfl
@[simp] theorem withPending_watcher (s : State) (q : List Instr) (i : StandNo) : (s.withPending q).watcher i = s.watcher i := rfl
@[simp] theorem withPending_web (s : State) (q : List Instr) (i : PathNo) : (s.withPending q).web i = s.web i := rfl
@[simp] theorem withPending_arbiter (s : State) (q : List Instr) (i : PathNo) : (s.withPending q).arbiter i = s.arbiter i := rfl
@[simp] theorem withPending_transit (s : State) (q : List Instr) (i : PathNo) : (s.withPending q).transit i = s.transit i := rfl
@[simp] theorem withPending_profile (s : State) (q : List Instr) (i : StandNo) : (s.withPending q).profile i = s.profile i := rfl
@[simp] theorem withPending_working (s : State) (q : List Instr) (i : StandNo) : (s.withPending q).working i = s.working i := rfl
@[simp] theorem withPending_setting (s : State) (q : List Instr) (i : PathNo) : (s.withPending q).setting i = s.setting i := rfl
@[simp] theorem withPending_output (s : State) (q : List Instr) (i : StandNo) : (s.withPending q).output i = s.output i := rfl
@[simp] theorem withPending_standInputs (s : State) (q : List Instr) (i : StandNo) : (s.withPending q).standInputs i = s.standInputs i := rfl
@[simp] theorem withPending_pathOf (s : State) (q : List Instr) (i : StandNo) : (s.withPending q).pathOf i = s.pathOf i := rfl
@[simp] theorem withPending_countOf (s : State) (q : List Instr) (i : StandNo) : (s.withPending q).countOf i = s.countOf i := rfl

/-! ### The readings that an update changes -/

@[simp] theorem modNotices_notices (s : State) (f : NoticeUnit → NoticeUnit) : (s.modNotices f).notices = f s.notices := rfl
@[simp] theorem modPort_port (s : State) (f : Port → Port) : (s.modPort f).port = f s.port := rfl
@[simp] theorem withPending_pending (s : State) (q : List Instr) : (s.withPending q).pending = q := rfl

/-- A vector over an index type reads at an index what was set there, and elsewhere what it held. -/
theorem getElem_set_fin {α : Type} {k : Nat} (v : Vector α k) (i j : Fin k) (x : α) :
    (v.set i x)[j] = if i = j then x else v[j] := by
  have h := Vector.getElem_set (xs := v) (i := i.val) (j := j.val) (x := x) i.isLt j.isLt
  simp only [Fin.ext_iff]
  exact h

theorem setReel_reel (s : State) (h : Handle) (r : Option Reel) (i : Handle) :
    (s.setReel h r).reel i = if h = i then r else s.reel i := getElem_set_fin _ _ _ _
theorem modReel_reel (s : State) (h : Handle) (f : Reel → Reel) (i : Handle) :
    (s.modReel h f).reel i = if h = i then (s.reel h).map f else s.reel i := getElem_set_fin _ _ _ _
theorem modStand_stand (s : State) (n : StandNo) (f : Stand → Stand) (i : StandNo) :
    (s.modStand n f).stand i = if n = i then f (s.stand n) else s.stand i := getElem_set_fin _ _ _ _
theorem modWatcher_watcher (s : State) (n : StandNo) (f : Watcher → Watcher) (i : StandNo) :
    (s.modWatcher n f).watcher i = if n = i then f (s.watcher n) else s.watcher i := getElem_set_fin _ _ _ _
theorem modWeb_web (s : State) (p : PathNo) (f : Web → Web) (i : PathNo) :
    (s.modWeb p f).web i = if p = i then f (s.web p) else s.web i := getElem_set_fin _ _ _ _
theorem modArbiter_arbiter (s : State) (p : PathNo) (f : Arbiter → Arbiter) (i : PathNo) :
    (s.modArbiter p f).arbiter i = if p = i then f (s.arbiter p) else s.arbiter i := getElem_set_fin _ _ _ _
theorem modTransit_transit (s : State) (p : PathNo) (f : Transit → Transit) (i : PathNo) :
    (s.modTransit p f).transit i = if p = i then f (s.transit p) else s.transit i := getElem_set_fin _ _ _ _
theorem modProfile_profile (s : State) (n : StandNo) (f : StandProfile → StandProfile) (i : StandNo) :
    (s.modProfile n f).profile i = if n = i then f (s.profile n) else s.profile i := getElem_set_fin _ _ _ _
theorem setSetting_setting (s : State) (p : PathNo) (g : PathSettings) (i : PathNo) :
    (s.setSetting p g).setting i = if p = i then g else s.setting i := getElem_set_fin _ _ _ _
theorem modOutputs_output (s : State) (n : StandNo) (f : Outputs → Outputs) (i : StandNo) :
    (s.modOutputs n f).output i = if n = i then f (s.output n) else s.output i := getElem_set_fin _ _ _ _
theorem modInputs_standInputs (s : State) (n : StandNo) (f : Inputs → Inputs) (i : StandNo) :
    (s.modInputs n f).standInputs i = if n = i then f (s.standInputs n) else s.standInputs i := getElem_set_fin _ _ _ _

@[simp] theorem setReel_reel_self (s : State) (h : Handle) (r : Option Reel) : (s.setReel h r).reel h = r := by
  simp [setReel_reel]
@[simp] theorem modReel_reel_self (s : State) (h : Handle) (f : Reel → Reel) : (s.modReel h f).reel h = (s.reel h).map f := by
  simp [modReel_reel]
@[simp] theorem modStand_stand_self (s : State) (n : StandNo) (f : Stand → Stand) : (s.modStand n f).stand n = f (s.stand n) := by
  simp [modStand_stand]
@[simp] theorem modWatcher_watcher_self (s : State) (n : StandNo) (f : Watcher → Watcher) :
    (s.modWatcher n f).watcher n = f (s.watcher n) := by simp [modWatcher_watcher]
@[simp] theorem modWeb_web_self (s : State) (p : PathNo) (f : Web → Web) : (s.modWeb p f).web p = f (s.web p) := by
  simp [modWeb_web]
@[simp] theorem modArbiter_arbiter_self (s : State) (p : PathNo) (f : Arbiter → Arbiter) :
    (s.modArbiter p f).arbiter p = f (s.arbiter p) := by simp [modArbiter_arbiter]
@[simp] theorem modTransit_transit_self (s : State) (p : PathNo) (f : Transit → Transit) :
    (s.modTransit p f).transit p = f (s.transit p) := by simp [modTransit_transit]
@[simp] theorem modProfile_profile_self (s : State) (n : StandNo) (f : StandProfile → StandProfile) :
    (s.modProfile n f).profile n = f (s.profile n) := by simp [modProfile_profile]
@[simp] theorem setSetting_setting_self (s : State) (p : PathNo) (g : PathSettings) : (s.setSetting p g).setting p = g := by
  simp [setSetting_setting]
@[simp] theorem modOutputs_output_self (s : State) (n : StandNo) (f : Outputs → Outputs) :
    (s.modOutputs n f).output n = f (s.output n) := by simp [modOutputs_output]
@[simp] theorem modInputs_standInputs_self (s : State) (n : StandNo) (f : Inputs → Inputs) :
    (s.modInputs n f).standInputs n = f (s.standInputs n) := by simp [modInputs_standInputs]

/-- Two changes of one arbiter are one change. -/
theorem modArbiter_modArbiter (s : State) (p : PathNo) (f g : Arbiter → Arbiter) :
    (s.modArbiter p f).modArbiter p g = s.modArbiter p fun b => g (f b) := by
  simp only [modArbiter, arbiter]
  congr 1
  simp

/-- Two changes of one stand are one change. -/
theorem modStand_modStand (s : State) (n : StandNo) (f g : Stand → Stand) :
    (s.modStand n f).modStand n g = s.modStand n fun st => g (f st) := by
  simp only [modStand, stand]
  congr 1
  simp

/-- Two changes of one path's transit queue are one change. -/
theorem modTransit_modTransit (s : State) (p : PathNo) (f g : Transit → Transit) :
    (s.modTransit p f).modTransit p g = s.modTransit p fun t => g (f t) := by
  simp only [modTransit, transit]
  congr 1
  simp

/-- Two changes of one stand's output latches are one change. -/
theorem modOutputs_modOutputs (s : State) (n : StandNo) (f g : Outputs → Outputs) :
    (s.modOutputs n f).modOutputs n g = s.modOutputs n fun o => g (f o) := by
  simp only [modOutputs, output]
  congr 1
  simp

/-- Two changes of one watcher are one change. -/
theorem modWatcher_modWatcher (s : State) (n : StandNo) (f g : Watcher → Watcher) :
    (s.modWatcher n f).modWatcher n g = s.modWatcher n fun w => g (f w) := by
  simp only [modWatcher, watcher]
  congr 1
  simp

/-- Two changes of one stand's profiles are one change. -/
theorem modProfile_modProfile (s : State) (n : StandNo) (f g : StandProfile → StandProfile) :
    (s.modProfile n f).modProfile n g = s.modProfile n fun q => g (f q) := by
  simp only [modProfile, profile]
  congr 1
  simp

/-- A change of a stand that leaves it as it is changes nothing. -/
theorem modStand_id (s : State) (n : StandNo) (f : Stand → Stand) (h : f (s.stand n) = s.stand n) : s.modStand n f = s := by
  simp [modStand, h]
  simp [stand]

/-- A change of a stand's output latches that leaves them as they are changes nothing. -/
theorem modOutputs_id (s : State) (n : StandNo) (f : Outputs → Outputs) (h : f (s.output n) = s.output n) :
    s.modOutputs n f = s := by
  simp [modOutputs, h]
  simp [output]

/-- A change of a record that is there is a replacement of it. -/
theorem modReel_some {s : State} {h : Handle} {r : Reel} (f : Reel → Reel) (live : s.reel h = some r) :
    s.modReel h f = s.setReel h (some (f r)) := by
  simp [modReel, live]

/-- Two changes of the port are one change. -/
theorem modPort_modPort (s : State) (f g : Port → Port) : (s.modPort f).modPort g = s.modPort fun q => g (f q) := rfl

/-! ### The readings of the state after device reset -/

@[simp] theorem reset_reel (h : Handle) : State.reset.reel h = none := by simp [State.reset, reel]
@[simp] theorem reset_stand (n : StandNo) : State.reset.stand n = Stand.reset := by simp [State.reset, stand]
@[simp] theorem reset_watcher (n : StandNo) : State.reset.watcher n = Watcher.reset := by simp [State.reset, watcher]
@[simp] theorem reset_web (p : PathNo) : State.reset.web p = Web.reset := by simp [State.reset, web]
@[simp] theorem reset_arbiter (p : PathNo) : State.reset.arbiter p = Arbiter.reset := by simp [State.reset, arbiter]
@[simp] theorem reset_transit (p : PathNo) : State.reset.transit p = Transit.reset := by simp [State.reset, transit]
@[simp] theorem reset_profile (n : StandNo) : State.reset.profile n = StandProfile.reset := by simp [State.reset, profile]
@[simp] theorem reset_working (n : StandNo) : State.reset.working n = Profile.default := by
  simp [working, StandProfile.reset]
@[simp] theorem reset_setting (p : PathNo) : State.reset.setting p = PathSettings.default := by simp [State.reset, setting]
@[simp] theorem reset_output (n : StandNo) : State.reset.output n = Outputs.reset := by simp [State.reset, output]
@[simp] theorem reset_standInputs (n : StandNo) : State.reset.standInputs n = Inputs.inactive := by
  simp [State.reset, standInputs]

end Sys2Proof.Machine.State
end

