-- ==== Sys2Proof/Laws/Flow.lean ====
section
/-! SUPPORT. What the shared operations of Machine/Flow.lean can do, said once: each is a chain of the small changes that
`Flows` lists, and a property that those changes keep is kept by all of them. -/

namespace Sys2Proof.Machine

/-- An arbiter that owes a decision, or rests as R121 says: its permit held, its path not clear, or no request waiting. -/
def Rests (b : Arbiter) : Prop :=
  b.decisionDue = true ∨ b.permit ≠ .free ∨ b.pathClear = false ∨ ∀ n : StandNo, b.requests[n] = none

/-- `t` comes from `s` by changes of the blocks that the course of a stand may make: of stands (whose queues do not grow,
but for a joining reel), records (which keep tag and place, and whose diameter does not grow), watchers, arbiters (which
keep their path-clear state), outputs, profiles (a working profile only by the application of a valid staged one) and notices. A strict chain makes no
decision: each of its changes of an arbiter that rests leaves it resting or owing a decision, and none of them grants the permit. -/
inductive Flows (strict : Bool) : State → State → Prop
  | refl (s : State) : Flows strict s s
  | stand {s t : State} (n : StandNo) (f : Stand → Stand) (h : Flows strict s t)
      (short : (f (t.stand n)).queue.length ≤ (t.stand n).queue.length) : Flows strict s (t.modStand n f)
  | join {s t : State} (n : StandNo) (x : Handle) (h : Flows strict s t)
      (room : (t.stand n).queue.length < Config.queueCapacity) :
      Flows strict s (t.modStand n fun st => { st with queue := st.queue ++ [x] })
  | reel {s t : State} (x : Handle) (f : Reel → Reel) (h : Flows strict s t)
      (keeps : ∀ r, t.reel x = some r → (f r).tag = r.tag ∧ (f r).place = r.place ∧ (f r).diameter ≤ r.diameter) :
      Flows strict s (t.modReel x f)
  | watcher {s t : State} (n : StandNo) (f : Watcher → Watcher) (h : Flows strict s t) : Flows strict s (t.modWatcher n f)
  | arbiter {s t : State} (p : PathNo) (f : Arbiter → Arbiter) (h : Flows strict s t)
      (keeps : ∀ b, (f b).pathClear = b.pathClear)
      (rests : strict = true → ∀ b, (Rests b → Rests (f b)) ∧ ∀ m, (f b).permit = .granted m → b.permit = .granted m) :
      Flows strict s (t.modArbiter p f)
  | outputs {s t : State} (n : StandNo) (f : Outputs → Outputs) (h : Flows strict s t) : Flows strict s (t.modOutputs n f)
  | profile {s t : State} (n : StandNo) (f : StandProfile → StandProfile) (h : Flows strict s t)
      (keeps : ∀ q, (f q).working = q.working) : Flows strict s (t.modProfile n f)
  | apply {s t : State} (n : StandNo) (h : Flows strict s t) (valid : t.validateProfile n = none) :
      Flows strict s (t.modProfile n fun q => { q with working := q.staged })
  | fileReel {s t : State} (n : StandNo) (c : ReelCause) (d : Detail) (h : Flows strict s t) : Flows strict s (t.fileReel n c d)
  | fileSplice {s t : State} (n : StandNo) (c : SpliceCause) (d : Detail) (h : Flows strict s t) : Flows strict s (t.fileSplice n c d)
  | fileLine {s t : State} (src : Source) (c : LineCause) (d : Detail) (h : Flows strict s t) : Flows strict s (t.fileLine src c d)
  | removeNotices {s t : State} (n : StandNo) (h : Flows strict s t) : Flows strict s (t.removeStandNotices n)

namespace Flows

variable {strict : Bool} {s t u : State}

/-- A strict chain is a chain. -/
theorem loose (h : Flows strict s t) : Flows false s t := by
  induction h with
  | refl => exact .refl _
  | stand n f _ short ih => exact .stand n f ih short
  | join n x _ room ih => exact .join n x ih room
  | reel x f _ keeps ih => exact .reel x f ih keeps
  | watcher n f _ ih => exact .watcher n f ih
  | arbiter p f _ keeps _ ih => exact .arbiter p f ih keeps fun strict => absurd strict (by simp)
  | outputs n f _ ih => exact .outputs n f ih
  | profile n f _ keeps ih => exact .profile n f ih keeps
  | apply n _ valid ih => exact .apply n ih valid
  | fileReel n c d _ ih => exact .fileReel n c d ih
  | fileSplice n c d _ ih => exact .fileSplice n c d ih
  | fileLine src c d _ ih => exact .fileLine src c d ih
  | removeNotices n _ ih => exact .removeNotices n ih

theorem trans (h : Flows strict s t) (k : Flows strict t u) : Flows strict s u := by
  induction k with
  | refl => exact h
  | stand n f _ short ih => exact .stand n f ih short
  | join n x _ room ih => exact .join n x ih room
  | reel x f _ keeps ih => exact .reel x f ih keeps
  | watcher n f _ ih => exact .watcher n f ih
  | arbiter p f _ keeps rests ih => exact .arbiter p f ih keeps rests
  | outputs n f _ ih => exact .outputs n f ih
  | profile n f _ keeps ih => exact .profile n f ih keeps
  | apply n _ valid ih => exact .apply n ih valid
  | fileReel n c d _ ih => exact .fileReel n c d ih
  | fileSplice n c d _ ih => exact .fileSplice n c d ih
  | fileLine src c d _ ih => exact .fileLine src c d ih
  | removeNotices n _ ih => exact .removeNotices n ih

/-! ### The operations of Machine/Ops.lean -/

theorem leaveQueue (h : Flows strict s t) (n : StandNo) (x : Handle) : Flows strict s (t.leaveQueue n x) :=
  .stand n _ h (List.length_filter_le _ _)

theorem becomeRunning (h : Flows strict s t) (x : Handle) (k : Option SpliceNo) : Flows strict s (t.becomeRunning x k) :=
  .reel x _ h fun _ _ => ⟨rfl, rfl, Nat.le_refl _⟩

theorem becomeButt (h : Flows strict s t) (x : Handle) : Flows strict s (t.becomeButt x) :=
  .reel x _ h fun _ _ => ⟨rfl, rfl, Nat.le_refl _⟩

theorem stopWatcher (h : Flows strict s t) (n : StandNo) : Flows strict s (t.stopWatcher n) := .watcher n _ h

theorem startWatcher (h : Flows strict s t) (n : StandNo) : Flows strict s (t.startWatcher n) := by
  unfold State.startWatcher
  split
  · exact h
  · exact .watcher n _ h

theorem moveWatcher (h : Flows strict s t) (n : StandNo) : Flows strict s (t.moveWatcher n) := by
  unfold State.moveWatcher
  split
  · exact h
  · exact .watcher n _ h
  · exact h.startWatcher n
  · exact h.startWatcher n

theorem endRunningReel (h : Flows strict s t) (n : StandNo) : Flows strict s (t.endRunningReel n) := by
  unfold State.endRunningReel
  split
  · exact h
  · exact .stand n _ ((h.becomeButt _).stopWatcher n) (Nat.le_refl _)

theorem promptDecision (h : Flows strict s t) (p : PathNo) : Flows strict s (t.promptDecision p) :=
  .arbiter p _ h (fun _ => rfl) fun _ _ => ⟨fun _ => .inl rfl, fun _ => id⟩

/-- An entry leaves the requests. -/
theorem removeRequest (h : Flows strict s t) (p : PathNo) (n : StandNo) : Flows strict s (t.setRequest p n none) := by
  refine .arbiter p _ h (fun _ => rfl) fun _ b => ⟨fun rests => ?_, fun _ => id⟩
  rcases rests with due | held | dim | none
  · exact .inl due
  · exact .inr (.inl held)
  · exact .inr (.inr (.inl dim))
  · refine .inr (.inr (.inr fun m => ?_))
    rw [State.getElem_set_fin]
    split
    · rfl
    · exact none m

theorem raiseRequest (h : Flows strict s t) (p : PathNo) (n : StandNo) (l : Option Level) :
    Flows strict s (t.raiseRequest p n l) := by
  unfold State.raiseRequest State.setRequest State.promptDecision
  rw [State.modArbiter_modArbiter]
  exact .arbiter p _ h (fun _ => rfl) fun _ _ => ⟨fun _ => .inl rfl, fun _ => id⟩

theorem withdrawRequest (h : Flows strict s t) (p : PathNo) (n : StandNo) : Flows strict s (t.withdrawRequest p n) :=
  (h.removeRequest p n).promptDecision p

theorem setForced (h : Flows strict s t) (p : PathNo) (n : StandNo) : Flows strict s (t.setPermit p (.forced n)) :=
  .arbiter p _ h (fun _ => rfl) fun _ _ => ⟨fun _ => .inr (.inl (by simp)), fun _ => by simp⟩

theorem freePermit (h : Flows strict s t) (p : PathNo) : Flows strict s (t.freePermit p) := by
  unfold State.freePermit State.setPermit State.promptDecision
  rw [State.modArbiter_modArbiter]
  exact .arbiter p _ h (fun _ => rfl) fun _ _ => ⟨fun _ => .inl rfl, fun _ => by simp⟩

theorem clearMarks (h : Flows strict s t) (p : PathNo) (n : StandNo) : Flows strict s (t.clearMarks p n) :=
  .arbiter p _ h (fun _ => rfl) fun _ _ => ⟨id, fun _ => id⟩

theorem startPulse (h : Flows strict s t) (n : StandNo) (out : PulseOutput) : Flows strict s (t.startPulse n out) := .outputs n _ h

theorem setDrive (h : Flows strict s t) (n : StandNo) (level : Bool) : Flows strict s (t.setDrive n level) := .outputs n _ h

/-! ### The operations of Machine/Flow.lean -/

theorem takeSplice (h : Flows strict s t) (n : StandNo) (forced held : Bool) : Flows strict s (t.takeSplice n forced held) := by
  unfold State.takeSplice
  split
  · exact h
  · refine .stand n _ (setDrive ?_ n true) (Nat.le_refl _)
    exact .reel _ _ h fun _ _ => ⟨rfl, rfl, Nat.le_refl _⟩

/-- What a forced take must do for the operations that carry it. -/
abbrev Forces (strict : Bool) (force : StandNo → State → State) : Prop :=
  ∀ {s t : State} (n : StandNo), Flows strict s t → Flows strict s (force n t)

theorem enterWaitingWith {force : StandNo → State → State} (k : Forces strict force) (h : Flows strict s t) (n : StandNo)
    (l : Option Level) : Flows strict s (t.enterWaitingWith force n l) := by
  unfold State.enterWaitingWith
  have w : Flows strict s (t.modStand n fun st => { st with state := .waiting, level := l }) := .stand n _ h (Nat.le_refl _)
  dsimp only
  split
  · exact k n w
  · exact w.raiseRequest _ n l

theorem readFlagsWith {force : StandNo → State → State} (k : Forces strict force) (h : Flows strict s t) (n : StandNo) :
    Flows strict s (t.readFlagsWith force n) := by
  unfold State.readFlagsWith
  dsimp only
  split
  · exact h.enterWaitingWith k n _
  · exact h

theorem raiseLevel (h : Flows strict s t) (n : StandNo) (l : Level) : Flows strict s (t.raiseLevel n l) :=
  (Flows.stand n _ h (Nat.le_refl _)).raiseRequest _ n _

theorem fileThreshold (h : Flows strict s t) (n : StandNo) (th : Threshold) : Flows strict s (t.fileThreshold n th) := by
  unfold State.fileThreshold
  dsimp only
  split
  · split
    · exact .fileReel n _ _ h
    · exact h
    · exact .fileReel n _ _ h
  · exact h

theorem thresholdInRunning {force : StandNo → State → State} (k : Forces strict force) (h : Flows strict s t) (n : StandNo)
    (th : Threshold) : Flows strict s (t.thresholdInRunning force n th) := by
  unfold State.thresholdInRunning
  split
  · exact h.fileThreshold n th
  · split <;> exact h.enterWaitingWith k n _

theorem thresholdInWaiting {force : StandNo → State → State} (k : Forces strict force) (h : Flows strict s t) (n : StandNo)
    (th : Threshold) : Flows strict s (t.thresholdInWaiting force n th) := by
  unfold State.thresholdInWaiting
  split
  · split
    · exact h.raiseLevel n _
    · exact h
  · split
    · exact h.raiseLevel n _
    · exact h
  · exact k n h

theorem thresholdBeforePaste (h : Flows strict s t) (n : StandNo) (th : Threshold) : Flows strict s (t.thresholdBeforePaste n th) := by
  unfold State.thresholdBeforePaste
  split
  · exact (Flows.stand n _ h (Nat.le_refl _)).fileThreshold n _
  · exact h.fileThreshold n _
  · exact h.fileThreshold n _

theorem thresholdEventWith {force : StandNo → State → State} (k : Forces strict force) (h : Flows strict s t) (n : StandNo)
    (th : Threshold) : Flows strict s (t.thresholdEventWith force n th) := by
  unfold State.thresholdEventWith
  split
  · exact h.thresholdInRunning k n th
  · exact h.thresholdInWaiting k n th
  all_goals first | exact h.thresholdBeforePaste n th | exact h.fileThreshold n th

theorem withThresholdFlag_queue (st : Stand) (th : Threshold) : (withThresholdFlag st th).queue = st.queue := by
  cases th <;> rfl

theorem testFlagWith {force : StandNo → State → State} (k : Forces strict force) (h : Flows strict s t) (n : StandNo)
    (diameter : Nat) (th : Threshold) : Flows strict s (t.testFlagWith force n diameter th) := by
  unfold State.testFlagWith
  split
  · exact (Flows.stand n _ h (by rw [withThresholdFlag_queue])).thresholdEventWith k n th
  · exact h

theorem testFlagsWith {force : StandNo → State → State} (k : Forces strict force) (h : Flows strict s t) (n : StandNo) :
    Flows strict s (t.testFlagsWith force n) := by
  unfold State.testFlagsWith
  split
  · exact h
  · exact ((h.testFlagWith k n _ _).testFlagWith k n _ _).testFlagWith k n _ _

theorem refuseJoin (h : Flows strict s t) (n : StandNo) (x : Handle) : Flows strict s (t.refuseJoin n x) :=
  .fileReel n _ _ (.reel x _ h fun _ _ => ⟨rfl, rfl, Nat.le_refl _⟩)

/-- An offer is made to a queue that has room (section 2.2). -/
theorem offerWith {force : StandNo → State → State} (k : Forces strict force) (h : Flows strict s t) (n : StandNo) (x : Handle)
    (room : (t.stand n).queue.length < Config.queueCapacity) : Flows strict s (t.offerWith force n x) := by
  unfold State.offerWith
  split
  · have joined : Flows strict s ((t.modReel x fun r => { r with mismatch := false }).modStand n fun st =>
        { st with queue := st.queue ++ [x] }) :=
      .join n x (.reel x _ h fun _ _ => ⟨rfl, rfl, Nat.le_refl _⟩) room
    dsimp only
    split
    · exact joined.readFlagsWith k n
    · exact joined
  · exact h.refuseJoin n x

theorem respondToLeave (h : Flows strict s t) (p : PathNo) (n : StandNo) (left : Handle) :
    Flows strict s (t.respondToLeave p n left) := by
  unfold State.respondToLeave
  dsimp only
  split
  · split
    · exact .fileReel n _ _ ((Flows.stand n _ h (Nat.le_refl _)).withdrawRequest p n)
    · exact .fileReel n _ _ h
    all_goals exact h
  · exact h

theorem leaveByCommand (h : Flows strict s t) (n : StandNo) (x : Handle) : Flows strict s (t.leaveByCommand n x) := by
  unfold State.leaveByCommand
  split
  · exact (h.leaveQueue n x).respondToLeave _ n x
  · exact h.leaveQueue n x

theorem recheckEntry (h : Flows strict s t) (n : StandNo) (x : Handle) : Flows strict s (t.recheckEntry n x) := by
  unfold State.recheckEntry
  split
  · exact h
  · exact (h.leaveQueue n x).refuseJoin n x

theorem recheckEntries (l : List Handle) (n : StandNo) {t : State} (h : Flows strict s t) :
    Flows strict s (l.foldl (fun s x => s.recheckEntry n x) t) := by
  induction l generalizing t with
  | nil => exact h
  | cons x rest ih => exact ih (h.recheckEntry n x)

theorem recheck (h : Flows strict s t) (p : PathNo) (n : StandNo) : Flows strict s (t.recheck p n) := by
  unfold State.recheck
  split
  · exact h
  · have checked := recheckEntries ‹List Handle› n (h.recheckEntry n ‹Handle›)
    dsimp only
    split
    · exact checked
    · exact checked.respondToLeave p n _

theorem moveRequest (h : Flows strict s t) (old : PathNo) (n : StandNo) : Flows strict s (t.moveRequest old n) := by
  unfold State.moveRequest
  split
  · exact (h.withdrawRequest old n).raiseRequest _ n _
  · exact h

/-- A profile is applied when its staged copy is valid (R154). -/
theorem applyProfileWith {force : StandNo → State → State} (k : Forces strict force) (h : Flows strict s t) (n : StandNo)
    (valid : t.validateProfile n = none) : Flows strict s (t.applyProfileWith force n) := by
  unfold State.applyProfileWith
  have copied : Flows strict s (t.modProfile n fun q => { q with working := q.staged }) := .apply n h valid
  dsimp only
  split
  · exact (copied.recheck _ n).testFlagsWith k n
  · exact ((((((copied.clearMarks _ n).clearMarks _ n).moveWatcher n).recheck _ n).moveRequest _ n).testFlagsWith k n)

theorem setOutcome (h : Flows strict s t) (n : StandNo) (o : ProfileOutcome) (field : Nat) : Flows strict s (t.setOutcome n o field) :=
  .profile n _ h fun _ => rfl

/-- The outcome of a PROFILE CHANGE has no part in the validation of the staged profile. -/
theorem validateProfile_setOutcome (s : State) (n : StandNo) (o : ProfileOutcome) (field : Nat) :
    (s.setOutcome n o field).validateProfile n = s.validateProfile n := by
  simp [State.validateProfile, State.setOutcome]

theorem applyDeferredProfileWith {force : StandNo → State → State} (k : Forces strict force) (h : Flows strict s t) (n : StandNo) :
    Flows strict s (t.applyDeferredProfileWith force n) := by
  unfold State.applyDeferredProfileWith
  split
  · have cleared : Flows strict s (t.modStand n fun st => { st with deferredProfile := false }) :=
      .stand n _ h (Nat.le_refl _)
    dsimp only
    split
    · exact cleared.setOutcome n _ _
    · rename_i valid
      exact (cleared.setOutcome n _ _).applyProfileWith k n ((validateProfile_setOutcome _ n _ _).trans valid)
  · exact h

theorem abandon (h : Flows strict s t) (n : StandNo) (reason : Reason) : Flows strict s (t.abandon n reason) := by
  unfold State.abandon
  split
  · exact h
  · rename_i c _
    have released : Flows strict s ((t.setDrive n false).modReel c.fresh fun r => { r with lock := false }) :=
      .reel _ _ (h.setDrive n false) fun _ _ => ⟨rfl, rfl, Nat.le_refl _⟩
    dsimp only
    refine .stand n _ (.fileSplice n _ _ ?_) (Nat.le_refl _)
    split
    · exact released.freePermit _
    · exact released

theorem abandonToWaitingWith {force : StandNo → State → State} (k : Forces strict force) (h : Flows strict s t) (n : StandNo)
    (reason : Reason) : Flows strict s (t.abandonToWaitingWith force n reason) :=
  ((h.abandon n reason).enterWaitingWith k n _).applyDeferredProfileWith k n

theorem takeByForce (h : Flows strict s t) (n : StandNo) (held : Bool) : Flows strict s (t.takeByForce n held) :=
  .fileSplice n _ _ (h.takeSplice n true held)

theorem forcedTakeWith {again : StandNo → State → State} (k : Forces strict again) (h : Flows strict s t) (n : StandNo) :
    Flows strict s (State.forcedTakeWith again n t) := by
  unfold State.forcedTakeWith
  have asked := h.removeRequest (t.pathOf n) n
  dsimp only
  split
  · exact (asked.setForced _ _).takeByForce n true
  · exact asked.takeByForce n false
  · have taken := (asked.setForced (t.pathOf n) n).takeByForce n true
    split
    · exact taken.abandonToWaitingWith k _ _
    · exact taken

theorem forcedTakeTo (depth : Nat) : Forces strict (State.forcedTakeTo depth) := by
  induction depth with
  | zero => exact fun _ h => h
  | succ depth ih => exact fun n h => h.forcedTakeWith ih n

theorem forcedTake : Forces strict State.forcedTake := forcedTakeTo _

theorem enterWaiting (h : Flows strict s t) (n : StandNo) (l : Option Level) : Flows strict s (t.enterWaiting n l) :=
  h.enterWaitingWith forcedTake n l

theorem testFlags (h : Flows strict s t) (n : StandNo) : Flows strict s (t.testFlags n) := h.testFlagsWith forcedTake n

theorem offer (h : Flows strict s t) (n : StandNo) (x : Handle) (room : (t.stand n).queue.length < Config.queueCapacity) :
    Flows strict s (t.offer n x) := h.offerWith forcedTake n x room

theorem applyProfile (h : Flows strict s t) (n : StandNo) (valid : t.validateProfile n = none) : Flows strict s (t.applyProfile n) :=
  h.applyProfileWith forcedTake n valid

theorem applyDeferredProfile (h : Flows strict s t) (n : StandNo) : Flows strict s (t.applyDeferredProfile n) :=
  h.applyDeferredProfileWith forcedTake n

theorem enterRunning (h : Flows strict s t) (n : StandNo) : Flows strict s (t.enterRunning n) :=
  (Flows.stand n _ h (Nat.le_refl _)).readFlagsWith forcedTake n

theorem withdrawIfWaiting (h : Flows strict s t) (n : StandNo) : Flows strict s (t.withdrawIfWaiting n) := by
  unfold State.withdrawIfWaiting
  split
  · exact h.withdrawRequest _ n
  · exact h

theorem enterOff (h : Flows strict s t) (n : StandNo) : Flows strict s (t.enterOff n) := by
  unfold State.enterOff
  have left := (h.withdrawIfWaiting n).stopWatcher n
  dsimp only
  refine .stand n _ ?_ (Nat.le_refl _)
  split
  · exact left
  · exact .reel _ _ left fun _ _ => ⟨rfl, rfl, Nat.le_refl _⟩

theorem disable (h : Flows strict s t) (n : StandNo) : Flows strict s (t.disable n) := by
  unfold State.disable
  split
  · exact (h.abandon n _).enterOff n
  · exact h.enterOff n

theorem resetEffects (h : Flows strict s t) (n : StandNo) : Flows strict s (t.resetEffects n) := by
  unfold State.resetEffects
  have cleared : Flows strict s (((t.withdrawIfWaiting n).clearMarks (t.pathOf n) n).modStand n fun st =>
      { st with hold := false, lock := false, stall := false, backoffTimer := none, level := none }) :=
    .stand n _ ((h.withdrawIfWaiting n).clearMarks _ n) (Nat.le_refl _)
  dsimp only
  split
  · exact cleared
  · split
    · exact cleared.enterRunning n
    · exact .stand n _ cleared (Nat.le_refl _)

theorem resetStand (h : Flows strict s t) (n : StandNo) : Flows strict s (t.resetStand n) := by
  unfold State.resetStand
  split
  · exact (h.abandon n _).resetEffects n
  · exact h.resetEffects n

theorem applyDeferred (h : Flows strict s t) (n : StandNo) : Flows strict s (t.applyDeferred n) := by
  unfold State.applyDeferred
  dsimp only
  have reset : Flows strict s (if (t.stand n).deferredReset then
      (t.modStand n fun st => { st with deferredReset := false }).resetStand n else t) := by
    split
    · exact (Flows.stand n _ h (Nat.le_refl _)).resetStand n
    · exact h
  revert reset
  generalize (if (t.stand n).deferredReset then
    (t.modStand n fun st => { st with deferredReset := false }).resetStand n else t) = u
  intro reset
  refine applyDeferredProfile ?_ n
  split
  · refine disable ?_ n
    exact .stand n _ reset (Nat.le_refl _)
  · exact reset

theorem enterHeld (h : Flows strict s t) (n : StandNo) : Flows strict s (t.enterHeld n) := by
  unfold State.enterHeld
  exact .stand n _ (h.withdrawIfWaiting n) (Nat.le_refl _)

theorem setHold (h : Flows strict s t) (n : StandNo) : Flows strict s (t.setHold n) := by
  unfold State.setHold
  have held : Flows strict s (t.modStand n fun st => { st with hold := true }) := .stand n _ h (Nat.le_refl _)
  dsimp only
  split
  all_goals first | exact held.enterHeld n | exact ((held.abandon n _).enterHeld n).applyDeferredProfile n | exact held

theorem clearHold (h : Flows strict s t) (n : StandNo) : Flows strict s (t.clearHold n) := by
  unfold State.clearHold
  have free : Flows strict s (t.modStand n fun st => { st with hold := false }) := .stand n _ h (Nat.le_refl _)
  dsimp only
  split
  · split
    · exact free.enterRunning n
    · exact .stand n _ free (Nat.le_refl _)
  · exact free

theorem adopt (h : Flows strict s t) (p : PathNo) (n : StandNo) : Flows strict s (t.adopt p n) :=
  .stand n _ (h.setForced p _) (Nat.le_refl _)

theorem clearLevelMarks (h : Flows strict s t) (p : PathNo) (l : Level) : Flows strict s (t.clearLevelMarks p l) :=
  .arbiter p _ h (fun _ => rfl) fun _ _ => ⟨id, fun _ => id⟩

theorem grant (h : Flows false s t) (p : PathNo) (n : StandNo) (l : Level) : Flows false s (t.grant p n l) := by
  unfold State.grant
  refine takeSplice ?_ n false true
  exact .arbiter p _ h (fun _ => rfl) fun strict => absurd strict (by simp)

theorem grantAmong (h : Flows false s t) (p : PathNo) (l : Level) (waiting : List StandNo) :
    Flows false s (t.grantAmong p l waiting) := by
  unfold State.grantAmong
  split
  · exact h.grant p _ l
  · split
    · exact h
    · exact (h.clearLevelMarks p l).grant p _ l

theorem decision (h : Flows false s t) (p : PathNo) : Flows false s (t.decision p) := by
  unfold State.decision
  split
  · split
    · exact h.adopt p _
    · split
      · split
        · exact h.grantAmong p _ _
        · exact h
      · exact h
  · exact h

theorem decideIfDue (h : Flows false s t) (p : PathNo) : Flows false s (t.decideIfDue p) := by
  unfold State.decideIfDue
  split
  · refine decision ?_ p
    exact .arbiter p _ h (fun _ => rfl) fun strict => absurd strict (by simp)
  · exact h

theorem settleDecisions (h : Flows false s t) : Flows false s t.settleDecisions :=
  (((h.decideIfDue 0).decideIfDue 1).decideIfDue 2).decideIfDue 3

end Flows

end Sys2Proof.Machine
end

