-- ==== Sys2Proof/Laws/Kept.lean ====
section
/-! SUPPORT. What every chain of `Flows` keeps: the blocks it does not touch, and the invariants of Safety.lean. -/

namespace Sys2Proof.Machine

open Sys2Proof.Safety

namespace Flows

variable {strict : Bool} {s t : State}

/-! ### Blocks that are not touched -/

theorem phase_eq (h : Flows strict s t) : t.phase = s.phase := by
  induction h with
  | refl => rfl
  | _ => assumption

theorem webs_eq (h : Flows strict s t) : t.webs = s.webs := by
  induction h with
  | refl => rfl
  | _ => assumption

theorem transits_eq (h : Flows strict s t) : t.transits = s.transits := by
  induction h with
  | refl => rfl
  | _ => assumption

theorem settings_eq (h : Flows strict s t) : t.settings = s.settings := by
  induction h with
  | refl => rfl
  | _ => assumption

theorem port_eq (h : Flows strict s t) : t.port = s.port := by
  induction h with
  | refl => rfl
  | _ => assumption

theorem inputs_eq (h : Flows strict s t) : t.inputs = s.inputs := by
  induction h with
  | refl => rfl
  | _ => assumption

theorem pending_eq (h : Flows strict s t) : t.pending = s.pending := by
  induction h with
  | refl => rfl
  | _ => assumption

theorem web_eq (h : Flows strict s t) (p : PathNo) : t.web p = s.web p := by simp only [State.web, h.webs_eq]

theorem transit_eq (h : Flows strict s t) (p : PathNo) : t.transit p = s.transit p := by
  simp only [State.transit, h.transits_eq]

theorem setting_eq (h : Flows strict s t) (p : PathNo) : t.setting p = s.setting p := by
  simp only [State.setting, h.settings_eq]

theorem standInputs_eq (h : Flows strict s t) (n : StandNo) : t.standInputs n = s.standInputs n := by
  simp only [State.standInputs, h.inputs_eq]

/-- The open notice, the rotation pointers and the class enables are not touched by a filing or a removal. -/
theorem notices_eq (h : Flows strict s t) :
    t.notices.opened = s.notices.opened ∧ t.notices.reelPointer = s.notices.reelPointer ∧
      t.notices.splicePointer = s.notices.splicePointer ∧ t.notices.linePointer = s.notices.linePointer ∧
      t.notices.reelEnable = s.notices.reelEnable ∧ t.notices.spliceEnable = s.notices.spliceEnable ∧
      t.notices.lineEnable = s.notices.lineEnable := by
  induction h with
  | refl => exact ⟨rfl, rfl, rfl, rfl, rfl, rfl, rfl⟩
  | _ => assumption

/-- The path-clear state of an arbiter changes only by the Transit Tracker's reports (R120). -/
theorem pathClear_eq (h : Flows strict s t) (q : PathNo) : (t.arbiter q).pathClear = (s.arbiter q).pathClear := by
  induction h with
  | refl => rfl
  | arbiter p f _ keeps _ ih =>
    rw [State.modArbiter_arbiter]
    split
    · rename_i same
      rw [keeps, same]
      exact ih
    · exact ih
  | _ => assumption

/-- A record keeps its slot, its tag and its place (R1, R6). -/
theorem reel_keys (h : Flows strict s t) (x : Handle) :
    (t.reel x).map (fun r => (r.tag, r.place)) = (s.reel x).map (fun r => (r.tag, r.place)) := by
  induction h with
  | refl => rfl
  | reel y f _ keeps ih =>
    rw [State.modReel_reel]
    split
    · rename_i same
      subst same
      rw [← ih, Option.map_map]
      match held : State.reel _ y with
      | none => rfl
      | some r => simp [keeps r held]
    · exact ih
  | _ => assumption

/-- A record keeps its slot, and its diameter does not grow (R45). -/
theorem reel_diameter (h : Flows strict s t) (x : Handle) :
    ∀ r', t.reel x = some r' → ∃ r, s.reel x = some r ∧ r'.diameter ≤ r.diameter := by
  induction h with
  | refl => exact fun r' e => ⟨r', e, Nat.le_refl _⟩
  | @reel v y f _ keeps ih =>
    intro r' e
    rw [State.modReel_reel] at e
    split at e
    · rename_i same
      subst same
      match held : v.reel y with
      | none => simp [held] at e
      | some r =>
        obtain ⟨r₀, h₀, le⟩ := ih r held
        simp only [held, Option.map_some, Option.some.injEq] at e
        subst e
        exact ⟨r₀, h₀, Nat.le_trans (keeps r held).2.2 le⟩
    · exact ih r' e
  | _ => assumption

/-! ### Invariants -/

theorem srqFollows (h : Flows strict s t) (k : SrqFollows s) : SrqFollows t := by
  induction h with
  | refl => exact k
  | fileReel => rfl
  | fileSplice => rfl
  | fileLine => rfl
  | removeNotices => rfl
  | _ => assumption

theorem rejectFollows (h : Flows strict s t) (k : RejectFollows s) : RejectFollows t := by
  intro p
  rw [h.transit_eq]
  exact k p

theorem pathClearFollows (h : Flows strict s t) (k : PathClearFollows s) : PathClearFollows t := by
  intro p
  rw [h.transit_eq, h.pathClear_eq]
  exact k p

theorem transitQueuesBounded (h : Flows strict s t) (k : TransitQueuesBounded s) : TransitQueuesBounded t := by
  intro p
  rw [h.transit_eq]
  exact k p

theorem settingsInRange (h : Flows strict s t) (k : SettingsInRange s) : SettingsInRange t := by
  intro p
  rw [h.setting_eq]
  exact k p

/-- A strict chain leaves every arbiter that rests resting, or owing a decision. -/
theorem rests (h : Flows true s t) (k : ∀ p, Rests (s.arbiter p)) : ∀ p, Rests (t.arbiter p) := by
  induction h with
  | refl => exact k
  | arbiter p f _ _ rests ih =>
    intro q
    rw [State.modArbiter_arbiter]
    split
    · exact (rests rfl _).1 (ih p)
    · exact ih q
  | _ => assumption

/-- A strict chain grants no permit. -/
theorem granted (h : Flows true s t) {p : PathNo} {m : StandNo} (k : (t.arbiter p).permit = .granted m) :
    (s.arbiter p).permit = .granted m := by
  induction h with
  | refl => exact k
  | arbiter q f _ _ rests ih =>
    rw [State.modArbiter_arbiter] at k
    split at k
    · rename_i same
      subst same
      exact ih ((rests rfl _).2 m k)
    · exact ih k
  | _ => rename_i ih; exact ih k

theorem orderQueuesBounded (h : Flows strict s t) (k : OrderQueuesBounded s) : OrderQueuesBounded t := by
  induction h with
  | refl => exact k
  | stand n f _ short ih =>
    intro m
    rw [State.modStand_stand]
    split
    · rename_i same
      exact Nat.le_trans short (ih n)
    · exact ih m
  | join n x _ room ih =>
    intro m
    rw [State.modStand_stand]
    split
    · simpa [Nat.succ_le_iff] using room
    · exact ih m
  | _ => assumption

theorem tagsDistinct (h : Flows strict s t) (k : TagsDistinct s) : TagsDistinct t := by
  intro x y r q hr hq same
  have hx := h.reel_keys x
  have hy := h.reel_keys y
  rw [hr] at hx
  rw [hq] at hy
  obtain ⟨r', hr', er⟩ := Option.map_eq_some_iff.mp hx.symm
  obtain ⟨q', hq', eq⟩ := Option.map_eq_some_iff.mp hy.symm
  have h1 : r'.tag = r.tag := congrArg Prod.fst er
  have h2 : q'.tag = q.tag := congrArg Prod.fst eq
  exact k x y r' q' hr' hq' (by rw [h1, h2, same])

theorem placesDistinct (h : Flows strict s t) (k : PlacesDistinct s) : PlacesDistinct t := by
  intro x y r q place hr hq pr pq
  have hx := h.reel_keys x
  have hy := h.reel_keys y
  rw [hr] at hx
  rw [hq] at hy
  obtain ⟨r', hr', er⟩ := Option.map_eq_some_iff.mp hx.symm
  obtain ⟨q', hq', eq⟩ := Option.map_eq_some_iff.mp hy.symm
  have h1 : r'.place = r.place := congrArg Prod.snd er
  have h2 : q'.place = q.place := congrArg Prod.snd eq
  exact k x y r' q' place hr' hq' (h1.trans pr) (h2.trans pq)

end Flows

/-! ### Profiles -/

/-- A valid staged profile is sound, and its gate distance is at least the reject lead of the path it names (R152). -/
theorem validateProfile_none {s : State} {n : StandNo} (h : s.validateProfile n = none) :
    ProfileSound (s.profile n).staged ∧
      (s.setting (profilePath (s.profile n).staged)).rejectLead ≤ (s.profile n).staged.gateDistance := by
  unfold State.validateProfile at h
  dsimp only at h
  split at h
  · exact absurd h (by simp)
  · rename_i fields
    split at h
    · exact absurd h (by simp)
    · rename_i order
      split at h
      · exact absurd h (by simp)
      · rename_i lead
        refine ⟨⟨?_, not_not.mp order⟩, Nat.le_of_not_lt lead⟩
        intro k hk
        have := List.find?_eq_none.mp fields k hk
        simpa using this

namespace Flows

variable {strict : Bool} {s t : State}

theorem workingProfilesSound (h : Flows strict s t) (k : WorkingProfilesSound s) : WorkingProfilesSound t := by
  induction h with
  | refl => exact k
  | @profile u n f _ keeps ih =>
    intro m
    have same : ((u.modProfile n f).profile m).working = (u.profile m).working := by
      rw [State.modProfile_profile]
      split
      · rename_i e
        rw [keeps, e]
      · rfl
    simp only [State.pathOf, State.working, same, State.modProfile_setting]
    exact ih m
  | apply n _ valid ih =>
    intro m
    have sound := validateProfile_none valid
    simp only [State.pathOf, State.working, State.modProfile_profile, State.modProfile_setting]
    split
    · exact sound
    · exact ih m
  | _ => assumption

end Flows

end Sys2Proof.Machine
end

