-- ==== Sys2Proof/Laws/Decisions.lean ====
section
/-! SUPPORT. What the decisions of the arbiters do (R121 to R128): they touch one arbiter each, leave none owed, and leave
every arbiter resting. -/

namespace Sys2Proof.Machine

namespace State

@[simp] theorem takeSplice_arbiters (s : State) (n : StandNo) (forced held : Bool) :
    (s.takeSplice n forced held).arbiters = s.arbiters := by
  unfold takeSplice
  split <;> rfl

@[simp] theorem takeSplice_arbiter (s : State) (n : StandNo) (forced held : Bool) (p : PathNo) :
    (s.takeSplice n forced held).arbiter p = s.arbiter p := by simp only [arbiter, takeSplice_arbiters]

theorem grant_arbiter (s : State) (p : PathNo) (n : StandNo) (l : Level) (q : PathNo) :
    (s.grant p n l).arbiter q =
      if p = q then
        { s.arbiter p with
          permit := .granted n
          requests := (s.arbiter p).requests.set n none
          marks := (s.arbiter p).marks.set n (withMark (s.arbiter p).marks[n] l true) }
      else s.arbiter q := by
  unfold grant
  rw [takeSplice_arbiter, modArbiter_arbiter]

theorem adopt_arbiter (s : State) (p : PathNo) (n : StandNo) (q : PathNo) :
    (s.adopt p n).arbiter q = if p = q then { s.arbiter p with permit := .forced n } else s.arbiter q := by
  unfold adopt setPermit
  rw [modStand_arbiter, modArbiter_arbiter]

/-- A grant among stands that wait leaves the permit held. -/
theorem grantAmong_arbiter (s : State) (p : PathNo) (l : Level) (waiting : List StandNo) (q : PathNo) :
    (p ≠ q → (s.grantAmong p l waiting).arbiter q = s.arbiter q) ∧
      ((s.grantAmong p l waiting).arbiter q).decisionDue = (s.arbiter q).decisionDue ∧
      (waiting ≠ [] → ((s.grantAmong p l waiting).arbiter p).permit ≠ .free) := by
  unfold grantAmong
  split
  · simp only [grant_arbiter]
    refine ⟨fun h => by simp [h], ?_, fun _ => by simp⟩
    split
    · rename_i e; subst e; rfl
    · rfl
  · split
    · exact ⟨fun _ => rfl, rfl, fun h => absurd rfl h⟩
    · simp only [grant_arbiter, clearLevelMarks, modArbiter_arbiter]
      refine ⟨fun h => by simp [h], ?_, fun _ => by simp⟩
      split
      · rename_i e; subst e; simp
      · rfl

/-- The highest level waiting has stands, and with none waiting there is no entry. -/
theorem highestWaiting_some {b : Arbiter} {l : Level} {waiting : List StandNo} (h : highestWaiting b = some (l, waiting)) :
    waiting = waitingAt b l ∧ waiting ≠ [] := by
  unfold highestWaiting at h
  split at h
  · cases h; exact ⟨rfl, by assumption⟩
  · split at h
    · cases h; exact ⟨rfl, by assumption⟩
    · split at h
      · cases h; exact ⟨rfl, by assumption⟩
      · exact absurd h (by simp)

theorem highestWaiting_none {b : Arbiter} (h : highestWaiting b = none) (n : StandNo) : b.requests[n] = none := by
  unfold highestWaiting at h
  split at h
  · exact absurd h (by simp)
  split at h
  · exact absurd h (by simp)
  split at h
  · exact absurd h (by simp)
  rename_i u m e
  simp only [ne_eq, not_not, waitingAt, List.filter_eq_nil_iff, List.mem_finRange, decide_eq_true_eq, true_implies] at u m e
  match hn : b.requests[n] with
  | none => rfl
  | some .urgent => exact absurd hn (u n)
  | some .normal => exact absurd hn (m n)
  | some .early => exact absurd hn (e n)

/-- A decision touches the arbiter of its path alone, and owes nothing new. -/
theorem decision_arbiter (s : State) (p q : PathNo) :
    (p ≠ q → (s.decision p).arbiter q = s.arbiter q) ∧
      ((s.decision p).arbiter q).decisionDue = (s.arbiter q).decisionDue := by
  unfold decision
  split
  · split
    · rw [adopt_arbiter]
      refine ⟨fun h => by simp [h], ?_⟩
      split
      · rename_i e; subst e; rfl
      · rfl
    · split
      · split
        · exact ⟨(grantAmong_arbiter s p _ _ q).1, (grantAmong_arbiter s p _ _ q).2.1⟩
        · exact ⟨fun _ => rfl, rfl⟩
      · exact ⟨fun _ => rfl, rfl⟩
  · exact ⟨fun _ => rfl, rfl⟩

/-- After a decision the arbiter rests (R121). -/
theorem decision_rests (s : State) (p : PathNo) :
    ((s.decision p).arbiter p).permit ≠ .free ∨ ((s.decision p).arbiter p).pathClear = false ∨
      ∀ n : StandNo, ((s.decision p).arbiter p).requests[n] = none := by
  unfold decision
  split
  · split
    · left
      rw [adopt_arbiter]
      simp
    · split
      · split
        · rename_i waits
          left
          exact (grantAmong_arbiter s p _ _ p).2.2 (highestWaiting_some waits).2
        · rename_i none
          exact .inr (.inr (highestWaiting_none none))
      · rename_i dim
        exact .inr (.inl (by simpa using dim))
  · exact .inl (by assumption)

/-- An arbiter that owes no decision makes none. -/
theorem decideIfDue_of_not (s : State) (p : PathNo) (h : (s.arbiter p).decisionDue = false) : s.decideIfDue p = s := by
  simp [decideIfDue, h]

/-- With no decision owed, settling the decisions changes nothing. -/
theorem settleDecisions_of_none (s : State) (h : ∀ p, (s.arbiter p).decisionDue = false) : s.settleDecisions = s := by
  unfold settleDecisions
  rw [decideIfDue_of_not s 0 (h 0), decideIfDue_of_not s 1 (h 1), decideIfDue_of_not s 2 (h 2), decideIfDue_of_not s 3 (h 3)]

theorem decideIfDue_arbiter (s : State) (p q : PathNo) (h : p ≠ q) : (s.decideIfDue p).arbiter q = s.arbiter q := by
  unfold decideIfDue
  split
  · rw [(decision_arbiter _ p q).1 h, modArbiter_arbiter]
    simp [h]
  · rfl

theorem decideIfDue_due (s : State) (p : PathNo) : ((s.decideIfDue p).arbiter p).decisionDue = false := by
  unfold decideIfDue
  split
  · rw [(decision_arbiter _ p p).2]
    simp
  · rename_i held
    simpa using held

theorem decideIfDue_rests (s : State) (p : PathNo) (h : Rests (s.arbiter p)) : Rests ((s.decideIfDue p).arbiter p) := by
  unfold decideIfDue
  split
  · exact .inr (decision_rests _ p)
  · exact h

/-- The arbiter of a path after all decisions is what its own decision leaves. -/
theorem settleDecisions_arbiter (s : State) (p : PathNo) :
    ∃ u : State, u.arbiter p = s.arbiter p ∧ s.settleDecisions.arbiter p = (u.decideIfDue p).arbiter p := by
  unfold settleDecisions
  match p with
  | 0 =>
    refine ⟨s, rfl, ?_⟩
    rw [decideIfDue_arbiter _ 3 0 (by decide), decideIfDue_arbiter _ 2 0 (by decide), decideIfDue_arbiter _ 1 0 (by decide)]
  | 1 =>
    refine ⟨s.decideIfDue 0, decideIfDue_arbiter _ 0 1 (by decide), ?_⟩
    rw [decideIfDue_arbiter _ 3 1 (by decide), decideIfDue_arbiter _ 2 1 (by decide)]
  | 2 =>
    refine ⟨(s.decideIfDue 0).decideIfDue 1, ?_, ?_⟩
    · rw [decideIfDue_arbiter _ 1 2 (by decide), decideIfDue_arbiter _ 0 2 (by decide)]
    · rw [decideIfDue_arbiter _ 3 2 (by decide)]
  | 3 =>
    refine ⟨((s.decideIfDue 0).decideIfDue 1).decideIfDue 2, ?_, rfl⟩
    rw [decideIfDue_arbiter _ 2 3 (by decide), decideIfDue_arbiter _ 1 3 (by decide), decideIfDue_arbiter _ 0 3 (by decide)]

/-- After the decisions of a step none is owed. -/
theorem settleDecisions_due (s : State) (p : PathNo) : (s.settleDecisions.arbiter p).decisionDue = false := by
  obtain ⟨u, _, e⟩ := settleDecisions_arbiter s p
  rw [e]
  exact decideIfDue_due u p

/-- After the decisions of a step every arbiter that rested or owed a decision rests. -/
theorem settleDecisions_rests (s : State) (h : ∀ p, Rests (s.arbiter p)) (p : PathNo) :
    Rests (s.settleDecisions.arbiter p) := by
  obtain ⟨u, same, e⟩ := settleDecisions_arbiter s p
  rw [e]
  exact decideIfDue_rests u p (same ▸ h p)

/-! ### Events -/

/-- An event of the field while READY is clear changes nothing (R181). -/
theorem atEvent_notReady (event : State → State) (s : State) (h : s.phase ≠ .ready) : atEvent event s = s := by
  simp [atEvent, h]

/-- An event of the field while READY is set, followed by the decisions it prompts. -/
theorem atEvent_ready (event : State → State) (s : State) (h : s.phase = .ready) :
    atEvent event s = (event s).settleDecisions := by
  simp [atEvent, h]

/-- An event that is a chain of small changes, with the decisions after it, is one. -/
theorem atEvent_flows {event : State → State} {s : State} (h : Flows false s (event s)) : Flows false s (atEvent event s) := by
  unfold atEvent
  split
  · exact h.settleDecisions
  · exact .refl s

end State

end Sys2Proof.Machine
end

