-- ==== Sys2Proof/Laws/Events.lean ====
section
/-! SUPPORT. The events of the field, of the stands' timers and of the stands' commands as chains of the small changes of
`Flows`, where they are such chains. -/

namespace Sys2Proof.Machine.Flows

variable {strict : Bool} {s t : State}

/-! ### Measurement -/

theorem beginInterval (h : Flows strict s t) (n : StandNo) (count : Count) (pLast : Nat) :
    Flows strict s (t.beginInterval n count pLast) := .watcher n _ h

theorem modRunning (h : Flows strict s t) (n : StandNo) {f : Reel → Reel}
    (keeps : ∀ r, t.runningReel n = some r → (f r).tag = r.tag ∧ (f r).place = r.place ∧ (f r).diameter ≤ r.diameter) :
    Flows strict s (t.modRunning n f) := by
  unfold State.modRunning
  split
  · exact h
  · rename_i running
    exact .reel _ _ h fun r held => keeps r (by simp [State.runningReel, running, held])

theorem closeInterval (h : Flows strict s t) (n : StandNo) (count : Count) (pulses : Nat) :
    Flows strict s (t.closeInterval n count pulses) := by
  unfold State.closeInterval
  split
  · exact h
  · rename_i r running
    split
    · rename_i accepted
      refine testFlags (modRunning (h.beginInterval n _ _) n ?_) n
      intro r' held
      refine ⟨rfl, rfl, ?_⟩
      cases running.symm.trans held
      simp only [State.acceptsSample, Bool.and_eq_true, decide_eq_true_eq] at accepted
      exact accepted.2
    · exact h.beginInterval n _ _

theorem restoreMeasurement (h : Flows strict s t) (n : StandNo) (count : Count) :
    Flows strict s (t.restoreMeasurement n count) := by
  unfold State.restoreMeasurement
  split
  · exact h
  · refine .fileLine _ _ _ (beginInterval ?_ n _ _)
    exact h.modRunning n fun _ _ => ⟨rfl, rfl, Nat.le_refl _⟩

theorem countSettleMark (h : Flows strict s t) (n : StandNo) : Flows strict s (t.countSettleMark n) := by
  unfold State.countSettleMark
  split
  · exact .stand n _ h (Nat.le_refl _)
  · exact h

theorem takeRunMark (h : Flows strict s t) (n : StandNo) (arm : Arm) : Flows strict s (t.takeRunMark n arm) := by
  unfold State.takeRunMark
  dsimp only
  split
  · split
    · exact h
    · exact (h.countSettleMark n).beginInterval n _ _
    · exact (h.countSettleMark n).closeInterval n _ _
    · exact (h.countSettleMark n).restoreMeasurement n _
  · exact h

theorem loseRunMark (h : Flows strict s t) (n : StandNo) (d : Count) : Flows strict s (t.loseRunMark n d) := by
  unfold State.loseRunMark
  refine .fileLine _ _ _ (.watcher n _ ?_)
  exact h.modRunning n fun _ _ => ⟨rfl, rfl, Nat.le_refl _⟩

theorem takeReckoningStep (h : Flows strict s t) (n : StandNo) (c : Count) :
    Flows strict s (t.takeReckoningStep n c) := by
  unfold State.takeReckoningStep
  refine testFlags (modRunning (.watcher n _ h) n ?_) n
  exact fun _ _ => ⟨rfl, rfl, Nat.min_le_left _ _⟩

/-! ### The path stop -/

/-- One stand's part of a path stop includes the decision it prompts. -/
theorem takePathStop (h : Flows false s t) (n : StandNo) : Flows false s (t.takePathStop n) := by
  unfold State.takePathStop
  split
  · exact (h.abandonToWaitingWith forcedTake n _).settleDecisions
  · exact h

theorem takePathStops (l : List StandNo) {t : State} (h : Flows false s t) :
    Flows false s (l.foldl (fun s n => s.takePathStop n) t) := by
  induction l generalizing t with
  | nil => exact h
  | cons n rest ih => exact ih (h.takePathStop n)

/-! ### The splice outside its paste -/

theorem enterBackoff (h : Flows strict s t) (n : StandNo) : Flows strict s (t.enterBackoff n) :=
  .stand n _ h (Nat.le_refl _)

theorem loseFreshMark (h : Flows strict s t) (n : StandNo) : Flows strict s (t.loseFreshMark n) :=
  ((h.abandon n _).enterBackoff n).applyDeferredProfile n

theorem stallSplice (h : Flows strict s t) (n : StandNo) : Flows strict s (t.stallSplice n) := by
  unfold State.stallSplice
  refine applyDeferredProfile ?_ n
  split
  · exact .fileSplice n _ _ (.stand n _ (h.abandon n _) (Nat.le_refl _))
  · unfold State.firstStall
    refine enterBackoff ?_ n
    exact .stand n _ (h.abandon n _) (Nat.le_refl _)

theorem retry (h : Flows strict s t) (n : StandNo) : Flows strict s (t.retry n) := by
  unfold State.retry
  have stopped : Flows strict s (t.modStand n fun st => { st with backoffTimer := none }) :=
    .stand n _ h (Nat.le_refl _)
  dsimp only
  split
  · exact .stand n _ stopped (Nat.le_refl _)
  · exact stopped.enterWaiting n _

theorem changeReels (h : Flows strict s t) (n : StandNo) (c : SpliceContext) : Flows strict s (t.changeReels n c) := by
  unfold State.changeReels
  refine startWatcher ?_ n
  exact .stand n _ (((h.endRunningReel n).becomeRunning _ _).leaveQueue n _) (Nat.le_refl _)

theorem enterSettle (h : Flows strict s t) (n : StandNo) (c : SpliceContext) : Flows strict s (t.enterSettle n c) := by
  unfold State.enterSettle
  exact .stand n _ (.outputs n _ h) (Nat.le_refl _)

theorem failSplice (h : Flows strict s t) (n : StandNo) (c : SpliceContext) (reason : Reason) :
    Flows strict s (t.failSplice n c reason) := by
  unfold State.failSplice
  refine .fileSplice n _ _ ?_
  exact .stand n _ (h.setDrive n false) (Nat.le_refl _)

theorem fileWebBreak (h : Flows strict s t) (n : StandNo) : Flows strict s (t.fileWebBreak n) := .fileLine _ _ _ h

theorem breakInSettle (h : Flows strict s t) (n : StandNo) (c : SpliceContext) :
    Flows strict s (t.breakInSettle n c) := by
  unfold State.breakInSettle
  refine applyDeferred (fileWebBreak ?_ n) n
  exact .stand n _ (h.failSplice n c _) (Nat.le_refl _)

theorem makeCut (h : Flows strict s t) (n : StandNo) (c : SpliceContext) : Flows strict s (t.makeCut n c) := by
  unfold State.makeCut
  have settled := (((h.startPulse n .knife).changeReels n c).enterSettle n c).testFlags n
  dsimp only
  split
  · exact settled.breakInSettle n c
  · exact settled

theorem cutIfReached (h : Flows strict s t) (n : StandNo) : Flows strict s (t.cutIfReached n) := by
  unfold State.cutIfReached
  split
  · exact h
  · split
    · exact h.makeCut n _
    · exact h

theorem completeSplice (h : Flows strict s t) (n : StandNo) (c : SpliceContext) :
    Flows strict s (t.completeSplice n c) := by
  unfold State.completeSplice
  have filed : Flows strict s (((t.setDrive n false).fileSplice n .complete (State.outcomeDetail c none)).modStand n
      fun st => { st with context := none }) :=
    .stand n _ (.fileSplice n _ _ (h.setDrive n false)) (Nat.le_refl _)
  dsimp only
  split
  · exact .stand n _ filed (Nat.le_refl _)
  · exact filed.enterRunning n

theorem endSettle (h : Flows strict s t) (n : StandNo) (c : SpliceContext) : Flows strict s (t.endSettle n c) := by
  unfold State.endSettle
  refine applyDeferred ?_ n
  split
  · exact h.completeSplice n c
  · exact h.failSplice n c _

/-! ### Keys and breaks -/

theorem prepareAndOffer (h : Flows strict s t) (n : StandNo) (x : Handle)
    (room : (t.stand n).queue.length < Config.queueCapacity) : Flows strict s (t.prepareAndOffer n x) := by
  unfold State.prepareAndOffer
  refine offer ?_ n x room
  exact .reel x _ h fun _ _ => ⟨rfl, rfl, Nat.le_refl _⟩

theorem pressLoadDone (h : Flows strict s t) (n : StandNo) (arm : Arm) : Flows strict s (t.pressLoadDone n arm) := by
  unfold State.pressLoadDone
  split
  · exact .fileReel n _ _ h
  · split
    · rename_i room
      exact h.prepareAndOffer n _ room.2
    · exact h

theorem pressHold (h : Flows strict s t) (n : StandNo) : Flows strict s (t.pressHold n) := by
  unfold State.pressHold
  split
  · exact h.clearHold n
  · exact h.setHold n

theorem spliceSoonOn (h : Flows strict s t) (n : StandNo) : Flows strict s (t.spliceSoonOn n) := by
  unfold State.spliceSoonOn
  split
  · exact h.enterWaiting n _
  · exact h

theorem spliceNowOn (h : Flows strict s t) (n : StandNo) : Flows strict s (t.spliceNowOn n) := by
  unfold State.spliceNowOn
  split
  · exact h.enterWaiting n _
  · split
    · exact h.raiseLevel n _
    · exact h
  · exact .stand n _ h (Nat.le_refl _)
  all_goals exact h

theorem pressSplice (h : Flows strict s t) (n : StandNo) : Flows strict s (t.pressSplice n) := by
  unfold State.pressSplice
  split
  · exact h.spliceNowOn n
  · exact h

theorem reportBreak (h : Flows strict s t) (n : StandNo) : Flows strict s (t.reportBreak n) := by
  unfold State.reportBreak
  refine fileWebBreak ?_ n
  exact .stand n _ h (Nat.le_refl _)

theorem endReelByBreak (h : Flows strict s t) (n : StandNo) : Flows strict s (t.endReelByBreak n) :=
  .fileLine _ _ _ (h.endRunningReel n)

theorem webEnd (h : Flows strict s t) (n : StandNo) : Flows strict s (t.webEnd n) := by
  unfold State.webEnd
  exact .stand n _ ((h.withdrawIfWaiting n).endReelByBreak n) (Nat.le_refl _)

theorem breakBeforePaste (h : Flows strict s t) (n : StandNo) : Flows strict s (t.breakBeforePaste n) := by
  unfold State.breakBeforePaste
  refine applyDeferredProfile ?_ n
  split
  · refine endReelByBreak ?_ n
    exact .stand n _ (h.abandon n _) (Nat.le_refl _)
  · refine reportBreak ?_ n
    exact .stand n _ (h.abandon n _) (Nat.le_refl _)

theorem breakAtRest (h : Flows strict s t) (n : StandNo) : Flows strict s (t.breakAtRest n) := by
  unfold State.breakAtRest
  split
  · exact h.fileWebBreak n
  · split
    · exact h.endReelByBreak n
    · exact h.reportBreak n

theorem recordBreak (h : Flows strict s t) (n : StandNo) : Flows strict s (t.recordBreak n) := .stand n _ h (Nat.le_refl _)

theorem takeBreak (h : Flows strict s t) (n : StandNo) : Flows strict s (t.takeBreak n) := by
  unfold State.takeBreak
  split
  any_goals first | exact h.breakBeforePaste n | exact h.breakAtRest n | exact h.fileWebBreak n | exact h.recordBreak n
  all_goals split
  all_goals first | exact h.webEnd n | exact h.reportBreak n | exact h | exact h.breakInSettle n _

/-! ### The commands of a stand -/

theorem resumeMeasurement (h : Flows strict s t) (n : StandNo) : Flows strict s (t.resumeMeasurement n) := by
  unfold State.resumeMeasurement
  split
  · exact h
  · refine startWatcher ?_ n
    exact .reel _ _ h fun _ _ => ⟨rfl, rfl, Nat.le_refl _⟩

theorem enable (h : Flows strict s t) (n : StandNo) : Flows strict s (t.enable n) := by
  unfold State.enable
  have ready : Flows strict s ((t.releaseMaintenance n).resumeMeasurement n) :=
    resumeMeasurement (.outputs n _ h) n
  dsimp only
  split
  · exact .stand n _ ready (Nat.le_refl _)
  · split
    · exact .stand n _ ready (Nat.le_refl _)
    · split
      · exact ready.enterRunning n
      · exact .stand n _ ready (Nat.le_refl _)

theorem threadOn (h : Flows strict s t) (n : StandNo) (x : Handle) : Flows strict s (t.threadOn n x) := by
  unfold State.threadOn
  have running : Flows strict s ((((t.endRunningReel n).becomeRunning x none).leaveQueue n x).modStand n fun st =>
      { st with running := some x }) :=
    .stand n _ (((h.endRunningReel n).becomeRunning x none).leaveQueue n x) (Nat.le_refl _)
  have tested := (running.startWatcher n).testFlags n
  dsimp only
  split
  · exact .stand n _ tested (Nat.le_refl _)
  · exact tested.enterRunning n

theorem maintainDrive (h : Flows strict s t) (n : StandNo) (code : Nat) : Flows strict s (t.maintainDrive n code) := by
  unfold State.maintainDrive
  split
  · exact h
  · exact .outputs n _ h

theorem maintainBrake (h : Flows strict s t) (n : StandNo) (code : Nat) : Flows strict s (t.maintainBrake n code) := by
  unfold State.maintainBrake
  split
  · exact h
  · refine .outputs n _ ?_
    exact .stand n _ h (Nat.le_refl _)

theorem maintainPulse (h : Flows strict s t) (n : StandNo) (code : Nat) : Flows strict s (t.maintainPulse n code) := by
  unfold State.maintainPulse
  split
  · exact h.startPulse n _
  · exact h.startPulse n _
  · exact h

end Sys2Proof.Machine.Flows
end

