-- ==== Sys2Proof/Laws/Commands.lean ====
section
/-! SUPPORT. The course that every command shares (Machine/CommandRow.lean), said once: what a row of a command keeps, how
its three forms go together, and the commands that are chains of small changes. -/

namespace Sys2Proof.Machine

/-! ### The checks of parameters -/

theorem withStand_elim {P : Taken → Prop} {s : State} {code : Nat} {k : StandNo → Taken}
    (bad : P (refuse s .badStand)) (good : ∀ n, P (k n)) : P (withStand s code k) := by
  unfold withStand
  split
  · exact good _
  · exact bad

theorem withPath_elim {P : Taken → Prop} {s : State} {code : Nat} {k : PathNo → Taken}
    (bad : P (refuse s .badValue)) (good : ∀ p, P (k p)) : P (withPath s code k) := by
  unfold withPath
  split
  · exact good _
  · exact bad

theorem withHandle_elim {P : Taken → Prop} {s : State} {code : Nat} {k : Handle → Reel → Taken}
    (bad : P (refuse s .badHandle)) (good : ∀ h r, s.reel h = some r → P (k h r)) : P (withHandle s code k) := by
  unfold withHandle
  split
  · split
    · exact good _ _ ‹_›
    · exact bad
  · exact bad

/-- A stand parameter in range passes its check. -/
theorem withStand_ok {s : State} {code : Nat} {k : StandNo → Taken} (n : StandNo) (h : code = n.val) :
    withStand s code k = k n := by
  subst h
  simp [withStand, n.isLt]

/-- A path parameter in range passes its check. -/
theorem withPath_ok {s : State} {code : Nat} {k : PathNo → Taken} (p : PathNo) (h : code = p.val) :
    withPath s code k = k p := by
  subst h
  simp [withPath, p.isLt]

/-- A handle parameter that names an occupied slot passes its check. -/
theorem withHandle_ok {s : State} {code : Nat} {k : Handle → Reel → Taken} (h : Handle) (r : Reel) (e : code = h.val)
    (occupied : s.reel h = some r) : withHandle s code k = k h r := by
  subst e
  simp [withHandle, h.isLt, occupied]

/-- Any other stand parameter is refused (R11). -/
theorem withStand_bad {s : State} {code : Nat} {k : StandNo → Taken} (h : 12 ≤ code) : withStand s code k = refuse s .badStand := by
  unfold withStand
  rw [dif_neg (by omega)]

/-- Any other path parameter is refused (R157, R179). -/
theorem withPath_bad {s : State} {code : Nat} {k : PathNo → Taken} (h : 4 ≤ code) : withPath s code k = refuse s .badValue := by
  unfold withPath
  rw [dif_neg (by omega)]

/-- Any other handle parameter is refused (R1). -/
theorem withHandle_bad {s : State} {code : Nat} {k : Handle → Reel → Taken}
    (h : ∀ x : Handle, code = x.val → s.reel x = none) : withHandle s code k = refuse s .badHandle := by
  unfold withHandle
  split
  · rename_i inTable
    rw [h ⟨code, inTable⟩ rfl]
  · rfl

/-! ### Device reset -/

namespace State

section DeviceReset

variable (s : State) (phase : Phase)

@[simp] theorem deviceReset_phase : (s.deviceReset phase).phase = phase := rfl
@[simp] theorem deviceReset_pending : (s.deviceReset phase).pending = s.pending := rfl
@[simp] theorem deviceReset_port : (s.deviceReset phase).port = Port.reset := rfl
@[simp] theorem deviceReset_notices : (s.deviceReset phase).notices = NoticeUnit.reset := rfl
@[simp] theorem deviceReset_reel (h : Handle) : (s.deviceReset phase).reel h = none := reset_reel h
@[simp] theorem deviceReset_stand (n : StandNo) : (s.deviceReset phase).stand n = Stand.reset := reset_stand n
@[simp] theorem deviceReset_watcher (n : StandNo) : (s.deviceReset phase).watcher n = Watcher.reset := reset_watcher n
@[simp] theorem deviceReset_web (p : PathNo) : (s.deviceReset phase).web p = Web.reset := reset_web p
@[simp] theorem deviceReset_arbiter (p : PathNo) : (s.deviceReset phase).arbiter p = Arbiter.reset := reset_arbiter p
@[simp] theorem deviceReset_transit (p : PathNo) : (s.deviceReset phase).transit p = Transit.reset := reset_transit p
@[simp] theorem deviceReset_profile (n : StandNo) : (s.deviceReset phase).profile n = StandProfile.reset := reset_profile n
@[simp] theorem deviceReset_working (n : StandNo) : (s.deviceReset phase).working n = Profile.default := reset_working n
@[simp] theorem deviceReset_setting (p : PathNo) : (s.deviceReset phase).setting p = PathSettings.default := reset_setting p
@[simp] theorem deviceReset_output (n : StandNo) : (s.deviceReset phase).output n = Outputs.reset := reset_output n
@[simp] theorem deviceReset_standInputs (n : StandNo) :
    (s.deviceReset phase).standInputs n = (s.standInputs n).atReset := by simp [deviceReset, standInputs]

end DeviceReset

end State

/-! ### The row of a command -/

namespace State

/-- What the code write keeps. -/
theorem writeCode_keeps {P : State → Prop} {s : State} (port : ∀ (u : State) (f : Port → Port), P u → P (u.modPort f))
    (reset : ∀ (u : State) (phase : Phase), P u → P (u.deviceReset phase)) (code : Byte) (h : P s) : P (s.writeCode code) := by
  unfold writeCode
  split
  · exact h
  · split
    · exact port _ _ h
    · split
      · exact h
      · split
        · exact port _ _ (port _ _ h)
        · exact reset _ _ h
        · exact port _ _ h

end State

/-- What the taking of a command by its block keeps. -/
theorem takeHanded_keeps {P : State → Prop} {s : State} {c : Command} {act : Buffer → State → Taken}
    (port : ∀ (u : State) (f : Port → Port), P u → P (u.modPort f)) (settle : ∀ u, P u → P u.settleDecisions)
    (acts : ∀ ps u, u.reels = s.reels → P u → P (act ps u).state) (position : Nat) (h : P s) :
    P (takeHanded c act position s) := by
  unfold takeHanded
  split
  · exact h
  · split
    · dsimp only
      split
      · exact settle _ (acts _ _ rfl (port _ _ h))
      · exact port _ _ (settle _ (acts _ _ rfl (port _ _ h)))
    · exact h

/-- What an event of the field keeps. -/
theorem atEvent_keeps {P : State → Prop} {s : State} {event : State → State} (settle : ∀ u, P u → P u.settleDecisions)
    (keeps : P s → P (event s)) (h : P s) : P (atEvent event s) := by
  unfold atEvent
  split
  · exact settle _ (keeps h)
  · exact h

/-- The code of a command names it (Figure 42). -/
theorem ofCode_code (c : Command) : Command.ofCode c.code = some c := by cases c <;> rfl

theorem code_ne_zero (c : Command) : c.code ≠ 0 := by cases c <;> decide

/-- The code write of a command handed to a block, while READY is set and BUSY clear (R174). -/
theorem writeCode_handOver {s : State} (c : Command) (h : c ≠ .deviceReset) (ready : s.phase = .ready)
    (idle : s.port.busy = false) : s.writeCode c.code = s.handOver c := by
  unfold State.writeCode
  rw [if_neg (by simp [ready]), if_neg (by simp [idle]), if_neg (code_ne_zero c), ofCode_code]
  cases c <;> first | rfl | exact absurd rfl h

/-- The taking of a command that is handed, may be taken and has not been discarded (R175). -/
theorem takeHanded_ok {s : State} {c : Command} {act : Buffer → State → Taken} {position : Nat} {ps : Buffer}
    (ready : s.phase = .ready) (handed : s.port.handed[position]? = some ⟨c, ps, false⟩)
    (first : mayTake s.port.handed position ⟨c, ps, false⟩ = true) :
    takeHanded c act position s =
      (act ps (s.modPort fun q => { q with handed := q.handed.eraseIdx position })).state.settleDecisions.modPort
        fun q => { q with
          answer := some (act ps (s.modPort fun q => { q with handed := q.handed.eraseIdx position })).answer } := by
  simp [takeHanded, handed, ready, first]

/-- What the row of a command that a block owns keeps: a property that the port has no part in, that the decisions keep, and
that the command's own block keeps, which finds the records as they stand. -/
theorem commandRow_keeps {P : State → Prop} {s : State} {c : Command} {act : Buffer → State → Taken}
    (handed : c ≠ .deviceReset) (port : ∀ (u : State) (f : Port → Port), P u → P (u.modPort f))
    (settle : ∀ u, P u → P u.settleDecisions) (acts : ∀ ps u, u.reels = s.reels → P u → P (act ps u).state) (e : CmdEvent)
    (h : P s) : P (commandRow c act e s) := by
  have written : P (s.writeCode c.code) ∧ (s.writeCode c.code).reels = s.reels := by
    by_cases ready : s.phase = .ready
    · by_cases idle : s.port.busy = false
      · rw [writeCode_handOver c handed ready idle]
        exact ⟨port _ _ h, rfl⟩
      · rw [State.writeCode, if_neg (by simp [ready]), if_pos (by simpa using idle)]
        exact ⟨port _ _ h, rfl⟩
    · rw [State.writeCode, if_pos ready]
      exact ⟨h, rfl⟩
  unfold commandRow
  split
  · exact written.1
  · exact takeHanded_keeps port settle acts _ h
  · split
    · exact takeHanded_keeps port settle (fun ps u same => acts ps u (same.trans written.2)) _ written.1
    · exact written.1

/-! ### Commands that are chains of small changes -/

/-- The owning block's part of a command is a chain of small changes. -/
def Acts (act : Buffer → State → Taken) : Prop :=
  ∀ (strict : Bool) (ps : Buffer) (s t : State), Flows strict s t → Flows strict s (act ps t).state

namespace Acts

theorem reorder : Acts reorder := by
  intro strict ps s t h
  refine withStand_elim (P := fun x => Flows strict s x.state) h fun n => ?_
  split
  · exact h
  · split
    · rename_i queue
      dsimp only [done, doneWithState]
      refine .stand n _ h ?_
      rw [queue]
      simp
    · exact h

theorem standEnable : Acts standEnable := by
  intro strict ps s t h
  refine withStand_elim (P := fun x => Flows strict s x.state) h fun n => ?_
  split
  · exact h.enable n
  · dsimp only [done, doneWithState]
    exact .stand n _ h (Nat.le_refl _)
  · dsimp only [done, doneWithState]
    exact .stand n _ h (Nat.le_refl _)
  all_goals exact h

theorem standDisable : Acts standDisable := by
  intro strict ps s t h
  refine withStand_elim (P := fun x => Flows strict s x.state) h fun n => ?_
  split
  · exact h
  · dsimp only [done, doneWithState]
    exact .stand n _ h (Nat.le_refl _)
  · dsimp only [done, doneWithState]
    exact .stand n _ h (Nat.le_refl _)
  · exact (h.disable n).applyDeferredProfile n
  · exact (h.disable n).applyDeferredProfile n
  all_goals exact h.disable n

theorem standReset : Acts standReset := by
  intro strict ps s t h
  refine withStand_elim (P := fun x => Flows strict s x.state) h fun n => ?_
  have quiet : Flows strict s (t.removeStandNotices n) := .removeNotices n h
  dsimp only
  split
  · dsimp only [done, doneWithState]
    exact .stand n _ quiet (Nat.le_refl _)
  · dsimp only [done, doneWithState]
    exact .stand n _ quiet (Nat.le_refl _)
  · exact (quiet.resetStand n).applyDeferredProfile n
  · exact (quiet.resetStand n).applyDeferredProfile n
  all_goals exact quiet.resetStand n

theorem threadReel : Acts threadReel := by
  intro strict ps s t h
  refine withHandle_elim (P := fun x => Flows strict s x.state) h fun x r _ => ?_
  refine withStand_elim (P := fun x => Flows strict s x.state) h fun n => ?_
  split
  · exact h
  · split
    · exact h
    · split
      · exact h
      · exact h.threadOn n x

theorem hold : Acts hold := by
  intro strict ps s t h
  refine withStand_elim (P := fun x => Flows strict s x.state) h fun n => ?_
  split
  · exact h
  · exact h.setHold n

theorem release : Acts release := by
  intro strict ps s t h
  refine withStand_elim (P := fun x => Flows strict s x.state) h fun n => ?_
  split
  · exact h.clearHold n
  · exact h

theorem spliceSoon : Acts spliceSoon := by
  intro strict ps s t h
  refine withStand_elim (P := fun x => Flows strict s x.state) h fun n => ?_
  split
  · exact h
  · exact h.spliceSoonOn n

theorem spliceNow : Acts spliceNow := by
  intro strict ps s t h
  refine withStand_elim (P := fun x => Flows strict s x.state) h fun n => ?_
  split
  · exact h
  · exact h.spliceNowOn n

theorem output : Acts output := by
  intro strict ps s t h
  refine withStand_elim (P := fun x => Flows strict s x.state) h fun n => ?_
  dsimp only
  split
  · exact h
  · split
    · exact h
    · split
      · exact h
      · exact ((h.maintainDrive n _).maintainBrake n _).maintainPulse n _

theorem fetchStand : Acts fetchStand := by
  intro strict ps s t h
  refine withStand_elim (P := fun x => Flows strict s x.state) h fun n => ?_
  split <;> exact h

theorem prepareReel : Acts prepareReel := by
  intro strict ps s t h
  refine withHandle_elim (P := fun x => Flows strict s x.state) h fun x r _ => ?_
  split
  · exact h
  · dsimp only
    split
    · split
      · exact h.prepareAndOffer _ x ‹_›
      · exact h
    · exact h

theorem profileWrite : Acts profileWrite := by
  intro strict ps s t h
  refine withStand_elim (P := fun x => Flows strict s x.state) h fun n => ?_
  dsimp only
  split
  · dsimp only [done, doneWithState]
    exact .profile n _ h fun _ => rfl
  · exact h

theorem profileRead : Acts profileRead := by
  intro strict ps s t h
  refine withStand_elim (P := fun x => Flows strict s x.state) h fun n => ?_
  dsimp only
  split
  · split <;> exact h
  · exact h

theorem profileChange : Acts profileChange := by
  intro strict ps s t h
  refine withStand_elim (P := fun x => Flows strict s x.state) h fun n => ?_
  split
  · refine Flows.setOutcome ?_ n _ _
    exact .stand n _ h (Nat.le_refl _)
  · split
    · exact h.setOutcome n _ _
    · rename_i valid
      exact (h.setOutcome n _ _).applyProfile n ((Flows.validateProfile_setOutcome _ n _ _).trans valid)

theorem findReel : Acts findReel := by
  intro strict ps s t h
  unfold Machine.findReel
  dsimp only
  split
  · split <;> exact h
  · exact h

theorem fetchReel : Acts fetchReel := by
  intro strict ps s t h
  exact withHandle_elim (P := fun x => Flows strict s x.state) h fun _ _ _ => h

theorem fetchPath : Acts fetchPath := by
  intro strict ps s t h
  refine withPath_elim (P := fun x => Flows strict s x.state) h fun p => ?_
  split
  · exact h
  · exact h
  · split <;> exact h

end Acts

end Sys2Proof.Machine
end

