-- ==== Sys2Proof/Laws/Transit.lean ====
section
/-! SUPPORT. What the Transit Tracker's operations do (Machine/TransitOps.lean, Machine/TransitEvents.lean): which queue they
change, how long it becomes, and that REJECT and the path-clear state follow it. -/

namespace Sys2Proof.Machine

open Sys2Proof.Safety

theorem changeYoungest_length (f : TransitRecord → TransitRecord) (l : List TransitRecord) :
    (changeYoungest f l).length = l.length := by
  induction l with
  | nil => rfl
  | cons r rest ih =>
    cases rest with
    | nil => rfl
    | cons next rest => simpa [changeYoungest] using ih

/-- The youngest record is the last, and a merge changes it alone (R139). -/
theorem changeYoungest_append (f : TransitRecord → TransitRecord) (l : List TransitRecord) (r : TransitRecord) :
    changeYoungest f (l ++ [r]) = l ++ [f r] := by
  induction l with
  | nil => rfl
  | cons a rest ih =>
    cases rest with
    | nil => rfl
    | cons b rest => simpa [changeYoungest] using ih

/-- A change of one record that leaves a mark of it as it is leaves what the queue says of that mark. -/
theorem any_modify {f : TransitRecord → TransitRecord} {g : TransitRecord → Bool} (keeps : ∀ r, g (f r) = g r)
    (l : List TransitRecord) (k : Nat) : (l.modify k f).any g = l.any g := by
  induction l generalizing k with
  | nil => cases k <;> rfl
  | cons a rest ih =>
    cases k with
    | zero => simp [keeps]
    | succ k => simp [ih]

theorem all_modify {f : TransitRecord → TransitRecord} {g : TransitRecord → Bool} (keeps : ∀ r, g (f r) = g r)
    (l : List TransitRecord) (k : Nat) : (l.modify k f).all g = l.all g := by
  induction l generalizing k with
  | nil => cases k <;> rfl
  | cons a rest ih =>
    cases k with
    | zero => simp [keeps]
    | succ k => simp [ih]

/-- A queue that is clear with one more record was clear without it (R120). -/
theorem queueClear_of_append {l : List TransitRecord} {r : TransitRecord} (h : queueClear (l ++ [r]) = true) :
    queueClear l = true := by
  simp only [queueClear, List.length_append, List.length_singleton, List.all_append, Bool.and_eq_true,
    decide_eq_true_eq] at h ⊢
  exact ⟨by omega, h.2.1⟩

namespace State

theorem setReject_transit (s : State) (p q : PathNo) :
    (s.setReject p).transit q =
      if p = q then { s.transit p with reject := (s.transit p).queue.any (·.rejecting) } else s.transit q := by
  unfold setReject
  rw [modTransit_transit]

theorem reportTransit_arbiter (s : State) (p q : PathNo) :
    (s.reportTransit p).arbiter q =
      if p = q then { s.arbiter p with pathClear := queueClear (s.transit p).queue } else s.arbiter q := by
  unfold reportTransit
  rw [modArbiter_arbiter]

/-- The queue that a paste leaves on its path (R136, R139). -/
def queueAfterPaste (s : State) (n : StandNo) (paste : Count) (forced : Bool) : List TransitRecord :=
  let t := s.transit (s.pathOf n)
  if t.queue.length < Config.transitCapacity then
    t.queue ++
      [newRecord t.spliceCounter n paste (s.countOf n) (s.countsOfPaste n paste) forced
        (t.queue.any fun r => !r.guardReached)]
  else changeYoungest (fun r => mergedRecord r (s.countOf n) (s.countsOfPaste n paste) forced) t.queue

/-- The notices after a paste: OVERLAP or MERGED may have been filed for the path (R138, R139). -/
def noticesAfterPaste (s : State) (n : StandNo) : NoticeUnit :=
  let p := s.pathOf n
  let t := s.transit p
  let number : Detail := { Detail.empty with spliceNumber := some t.spliceCounter }
  if t.queue.length < Config.transitCapacity then
    if t.queue.any fun r => !r.guardReached then (s.fileLine (pathSource p) .overlap number).notices else s.notices
  else (s.fileLine (pathSource p) .merged number).notices

/-- The Transit Tracker's part of a paste, said whole (R135 to R140, R143, R120). -/
theorem pasteTransit_eq (s : State) (n : StandNo) (paste : Count) (forced : Bool) :
    s.pasteTransit n paste forced =
      ((s.modNotices fun _ => s.noticesAfterPaste n).modTransit (s.pathOf n) fun t =>
        { queue := s.queueAfterPaste n paste forced
          spliceCounter := t.spliceCounter + 1
          reject := (s.queueAfterPaste n paste forced).any (·.rejecting) }).modArbiter (s.pathOf n)
        fun b => { b with pathClear := queueClear (s.queueAfterPaste n paste forced) } := by
  unfold pasteTransit queueAfterPaste noticesAfterPaste
  dsimp only
  split
  · unfold enterTransit
    dsimp only
    split
    · rename_i overlap
      simp [setReject, reportTransit, fileLine, modNotices, modTransit, modArbiter, transit, arbiter, pathOf, working,
        profile]
    · rename_i overlap
      simp [setReject, reportTransit, modNotices, modTransit, modArbiter, transit, arbiter, pathOf, working,
        profile]
  · unfold mergeTransit
    dsimp only
    simp [setReject, reportTransit, fileLine, modNotices, modTransit, modArbiter, transit, arbiter, pathOf, working,
      profile]

end State

end Sys2Proof.Machine
end

