-- ==== Sys2Proof/Laws/Keeps.lean ====
section
/-! SUPPORT. One principle over the whole of `exec`: a property that the small changes a row may make keep is kept by the
row. An invariant is proved by giving the fields of `Kept` for every row, and what a row leaves alone by giving them for that
row: the changes that other rows make are then ruled out. -/

namespace Sys2Proof.Machine

open Sys2Proof.Safety

/-- The rows that can reset the device. A code write of an undefined code and an ignored write are among them by their
operand alone: neither carries the code of DEVICE RESET where it is well formed. -/
def mayReset : Instr → Bool
  | .resetLineAsserted | .deviceReset _ | .undefinedCommandCode _ | .ignoredRegisterWrite _ _ => true
  | _ => false

/-- The rows that carry a device reset on: the release of the line and the end of initialisation. -/
def endsReset : Instr → Bool
  | .resetLineReleased | .initialisationComplete => true
  | _ => false

/-- The rows that change a Transit Tracker: the pastes and the targets of its records, which a pulse and the expiry of a motion
timer take where they are due. -/
def changesTransit : Instr → Bool
  | .paste _ | .freshReelMark _ _ _ | .rejectStart _ _ | .rejectEnd _ _ | .guardCountReached _ _ => true
  | .webPulse _ _ | .motionTimerExpiry _ _ => true
  | _ => false

/-- The rows that change a web: its pulses and its motion timer. -/
def changesWeb : Instr → Bool
  | .webPulse _ _ | .motionTimerExpiry _ _ => true
  | _ => false

/-- What a property of states must satisfy for the row `i`, taken in the state `s`, to keep it. -/
structure Kept (i : Instr) (s : State) (P : State → Prop) : Prop where
  port : ∀ (u : State) (f : Port → Port), P u → P (u.modPort f)
  reset : mayReset i = true → ∀ (u : State) (phase : Phase), P u → P (u.deviceReset phase)
  ready : endsReset i = true → ∀ (u : State) (phase : Phase) (inputs : Vector Inputs 12), P u →
    P { u with phase := phase, inputs := inputs }
  flows : ∀ {u t : State}, P u → Flows true u t → P t
  settle : ∀ u : State, P u → P u.settleDecisions
  inputs : ∀ (u : State) (n : StandNo) (f : Inputs → Inputs), P u → P (u.modInputs n f)
  web : changesWeb i = true → ∀ (u : State) (p : PathNo) (f : Web → Web), P u → P (u.modWeb p f)
  paste : changesTransit i = true → ∀ (u : State) (n : StandNo) (paste : Count) (forced : Bool), P u →
    P (u.pasteTransit n paste forced)
  startReject : changesTransit i = true → ∀ (u : State) (p : PathNo) (position : Nat), P u → P (u.startReject p position)
  endReject : changesTransit i = true → ∀ (u : State) (p : PathNo) (position : Nat), P u → P (u.endReject p position)
  reachGuard : changesTransit i = true → ∀ (u : State) (p : PathNo) (position : Nat), P u → P (u.reachGuard p position)
  enter : ∀ (u : State) (h : Handle) (r : Reel), u.reels = s.reels → u.reel h = none → u.handleOfTag r.tag = none →
    r.place = none → P u → P (u.setReel h (some r))
  change : ∀ (u : State) (h : Handle) (r r' : Reel), u.reels = s.reels → u.reel h = some r → r'.tag = r.tag →
    (r.state = .running → r'.diameter = r.diameter) →
    (r'.place = r.place ∨ r'.place = none ∨ ∃ n arm, r'.place = some ⟨n, arm⟩ ∧ u.armHolds n arm = none) → P u →
    P (u.setReel h (some r'))
  remove : ∀ (u : State) (h : Handle), u.reels = s.reels → P u → P (u.setReel h none)
  accept : ∀ (u : State) (cls : NoticeClass) (src : Source) (o : OpenNotice), P u →
    P (u.modNotices fun n => { n.takeFrom cls src with opened := some o }.judge)
  discard : ∀ u : State, P u → P u.discardOpenNotice
  enables : ∀ (u : State) (value : Byte), P u → P (u.writeEnables value)
  setting : (∃ e, i = .pathSet e) → ∀ (u : State) (p : PathNo) (g : PathSettings), settingsInRange g = true →
    u.standBelowLead p g.rejectLead = none → P u → P (u.setSetting p g)

namespace Kept

variable {P : State → Prop} {i : Instr} {s t u : State}

theorem row (k : Kept i s P) {c : Command} (handed : c ≠ .deviceReset) {act : Buffer → State → Taken}
    (acts : ∀ ps u, u.reels = s.reels → P u → P (act ps u).state) (e : CmdEvent) (h : P s) : P (commandRow c act e s) :=
  commandRow_keeps handed k.port k.settle acts e h

theorem rowOfActs (k : Kept i s P) {c : Command} (handed : c ≠ .deviceReset) {act : Buffer → State → Taken} (acts : Acts act)
    (e : CmdEvent) (h : P s) : P (commandRow c act e s) :=
  k.row handed (fun ps u _ hu => k.flows hu (acts true ps u u (.refl u))) e h

theorem event (k : Kept i s P) {event : State → State} (keeps : P s → P (event s)) (h : P s) : P (atEvent event s) :=
  atEvent_keeps k.settle keeps h

theorem eventOfFlows (k : Kept i s P) {event : State → State} (flows : Flows true s (event s)) (h : P s) :
    P (atEvent event s) := k.event (fun h => k.flows h flows) h

theorem lowestFree_reel {h : Handle} (e : s.lowestFree = some h) : s.reel h = none := by
  have := List.find?_some e
  simpa using this

theorem enterReel (k : Kept i s P) (ps : Buffer) (same : u.reels = s.reels) (h : P u) : P (enterReel ps u).state := by
  unfold Machine.enterReel
  split
  · exact h
  · rename_i r given
    split
    · exact h
    · rename_i fresh
      split
      · exact h
      · refine k.enter u _ r same (lowestFree_reel ‹_›) (by simpa using fresh) ?_ h
        unfold enteredReel at given
        dsimp only at given
        split at given
        · exact absurd given (by simp)
        · split at given
          · cases given
            rfl
          · exact absurd given (by simp)

theorem amendReel (k : Kept i s P) (ps : Buffer) (same : u.reels = s.reels) (h : P u) : P (amendReel ps u).state := by
  refine withHandle_elim (P := fun x => P x.state) h fun x r held => ?_
  split
  · exact h
  · rename_i m _
    have keys : (amendedReel m r).tag = r.tag ∧ (amendedReel m r).place = r.place := by
      unfold amendedReel
      dsimp only
      split <;> exact ⟨rfl, rfl⟩
    split
    · exact h
    · split
      · exact h
      · rename_i allowed
        refine k.change u x r _ same held keys.1 (fun running => ?_) (.inl keys.2) h
        simp only [amendRefusal, running] at allowed
        unfold namesOtherThanCaliperAndOffset at allowed
        have diameter : m.diameter = none := by
          cases e : m.diameter with
          | none => rfl
          | some d => simp [e] at allowed
        unfold amendedReel
        dsimp only
        split <;> simp [amendFields, diameter]

theorem mountReel (k : Kept i s P) (ps : Buffer) (same : u.reels = s.reels) (h : P u) : P (mountReel ps u).state := by
  refine withHandle_elim (P := fun x => P x.state) h fun x r held => ?_
  refine withStand_elim (P := fun x => P x.state) h fun n => ?_
  split
  · exact h
  · split
    · exact h
    · split
      · exact h
      · rename_i empty
        exact k.change u x r _ same held rfl (fun _ => rfl) (.inr (.inr ⟨_, _, rfl, by simpa using empty⟩)) h

theorem leaveItsQueue (k : Kept i s P) (x : Handle) (place : Option Place) (h : P u) : P (u.leaveItsQueue x place) := by
  unfold State.leaveItsQueue
  split
  · exact h
  · exact k.flows h ((Flows.refl u).leaveByCommand _ x)

theorem unmountReel (k : Kept i s P) (ps : Buffer) (same : u.reels = s.reels) (h : P u) : P (unmountReel ps u).state := by
  refine withHandle_elim (P := fun x => P x.state) h fun x r held => ?_
  have staged : P (u.setReel x (some { r with state := .staged, place := none })) :=
    k.change u x r _ same held rfl (fun _ => rfl) (.inr (.inl rfl)) h
  split
  · exact h
  · exact h
  · exact k.remove u x same h
  · exact staged
  · split
    · exact h
    · exact k.leaveItsQueue x _ staged

theorem retireReel (k : Kept i s P) (ps : Buffer) (same : u.reels = s.reels) (h : P u) : P (retireReel ps u).state := by
  refine withHandle_elim (P := fun x => P x.state) h fun x r _ => ?_
  have removed : P (u.setReel x none) := k.remove u x same h
  split
  · exact h
  · exact removed
  · exact removed
  · exact removed
  · split
    · exact h
    · exact k.leaveItsQueue x _ removed

theorem pathSet (k : Kept i s P) (hi : ∃ e, i = .pathSet e) (ps : Buffer) (h : P u) : P (pathSet ps u).state := by
  refine withPath_elim (P := fun x => P x.state) h fun p => ?_
  dsimp only
  split
  · split
    · exact h
    · exact k.setting hi u p _ ‹_› ‹_› h
  · exact h

theorem acceptNotice (k : Kept i s P) (ps : Buffer) (h : P u) : P (acceptNotice ps u).state := by
  unfold Machine.acceptNotice
  split
  · exact h
  · split
    · exact h
    · split
      · exact h
      · exact k.accept u _ _ _ h

theorem endNotice (k : Kept i s P) (ps : Buffer) (h : P u) : P (endNotice ps u).state := by
  unfold Machine.endNotice
  split
  · exact h
  · exact k.discard u h

theorem writeRegister (k : Kept i s P) (offset : Fin 8) (value : Byte) (hi : offset = 0 → mayReset i = true) (h : P u) :
    P (u.writeRegister offset value) := by
  unfold State.writeRegister
  split
  · split
    · exact State.writeCode_keeps k.port (k.reset (hi rfl)) _ h
    · exact h
    · exact h
    · unfold State.writeBuffer
      split <;> exact k.port _ _ h
    · unfold State.writeIndex
      split
      · exact k.port _ _ h
      · split
        · exact k.port _ _ h
        · exact h
    · exact h
    · exact k.enables _ _ h
    · unfold State.writeControl
      split
      · exact k.discard _ (k.port _ _ h)
      · exact h
  · exact h

theorem markEdge (k : Kept i s P) (n : StandNo) (arm : Arm) (since : Nat) {mark : State → State}
    (keeps : ∀ u, P u → P (mark u)) (h : P s) : P (s.markEdge n arm since mark) := by
  unfold State.markEdge
  split
  · exact h
  · exact keeps _ (k.inputs _ _ _ h)

theorem makePaste (k : Kept i s P) (hi : changesTransit i = true) (n : StandNo) (c : SpliceContext) (paste : Count) (h : P u) :
    P (u.makePaste n c paste) := by
  unfold State.makePaste
  dsimp only
  have tracked : P ((u.startPulse n .paste).pasteTransit n paste c.forced) :=
    k.paste hi _ _ _ _ (k.flows h ((Flows.refl u).startPulse n .paste))
  split
  · refine k.flows tracked (.stand n _ ((Flows.refl _).freePermit _) (Nat.le_refl _))
  · exact k.flows tracked (.stand n _ (.refl _) (Nat.le_refl _))

theorem takePaste (k : Kept i s P) (hi : changesTransit i = true) (n : StandNo) (c : SpliceContext) (paste : Count) (h : P u) :
    P (u.takePaste n c paste) :=
  k.flows (k.makePaste hi n c paste h) ((Flows.refl _).cutIfReached n)

theorem pasteIfReached (k : Kept i s P) (hi : changesTransit i = true) (n : StandNo) (h : P u) : P (u.pasteIfReached n) := by
  unfold State.pasteIfReached
  split
  · exact h
  · split
    · exact h
    · split
      · exact k.takePaste hi n _ _ h
      · exact h

theorem takeFreshMark (k : Kept i s P) (hi : changesTransit i = true) (n : StandNo) (arm : Arm) (h : P u) :
    P (u.takeFreshMark n arm) := by
  have stand : ∀ f : Stand → Stand, (∀ st, (f st).queue = st.queue) → P (u.modStand n f) := fun f keeps =>
    k.flows h (.stand n f (.refl u) (by rw [keeps]))
  unfold State.takeFreshMark
  split
  · exact h
  · split
    · split
      · unfold State.markInRunUp
        dsimp only
        split
        · exact k.pasteIfReached hi n (stand _ fun _ => rfl)
        · exact stand _ fun _ => rfl
      · unfold State.markInPaste
        exact k.pasteIfReached hi n (stand _ fun _ => rfl)
      all_goals exact h
    · exact h

theorem onContext (n : StandNo) {event : SpliceContext → State} (keeps : ∀ c, P (event c)) (h : P u) :
    P (u.onContext n event) := by
  unfold State.onContext
  split
  · exact h
  · exact keeps _

/-- The event of a target changes a Transit Tracker only where it is a paste or a target of a transit record. -/
theorem takeTarget (k : Kept i s P) (target : Target) (count : Count)
    (hi : (match target with
      | .paste _ | .rejectStart _ _ | .rejectEnd _ _ | .guardCount _ _ => changesTransit i = true
      | _ => True)) (h : P u) : P (u.takeTarget target count) := by
  cases target with
  | runMarkDeadline n => exact k.flows h ((Flows.refl u).loseRunMark n _)
  | reckoningStep n => exact k.flows h ((Flows.refl u).takeReckoningStep n _)
  | freshReelMarkDeadline n => exact k.flows h ((Flows.refl u).loseFreshMark n)
  | paste n => exact onContext n (fun c => k.takePaste hi n c _ h) h
  | cut n => exact onContext n (fun c => k.flows h ((Flows.refl u).makeCut n c)) h
  | settle n => exact onContext n (fun c => k.flows h ((Flows.refl u).endSettle n c)) h
  | rejectStart p position => exact k.startReject hi u p position h
  | rejectEnd p position => exact k.endReject hi u p position h
  | guardCount p position => exact k.reachGuard hi u p position h

theorem atTarget (k : Kept i s P) (target : Target)
    (hi : (match target with
      | .paste _ | .rejectStart _ _ | .rejectEnd _ _ | .guardCount _ _ => changesTransit i = true
      | _ => True)) (h : P u) : P (u.atTarget target) := by
  unfold State.atTarget
  split
  · exact h
  · split
    · exact k.takeTarget target _ hi h
    · exact h

theorem takeReached (k : Kept i s P) (hi : changesTransit i = true) (p : PathNo) (h : P u) : P (u.takeReached p) := by
  unfold State.takeReached
  induction State.targetsOf p generalizing u with
  | nil => exact h
  | cons target rest ih =>
    refine ih ?_
    unfold State.takeIfDue
    split
    · exact k.settle _ (k.atTarget target (by split <;> first | exact hi | trivial) h)
    · exact h

theorem pulseEdge (k : Kept i s P) (hi : changesWeb i = true ∧ changesTransit i = true) (p : PathNo) (since : Nat) (h : P s) :
    P (s.pulseEdge p since) := by
  unfold State.pulseEdge
  split
  · exact h
  · have taken := k.takeReached hi.2 p h
    unfold State.takePulse
    dsimp only
    split
    · exact k.web hi.1 _ p _ taken
    · exact k.flows (k.web hi.1 _ p _ taken) (.fileLine _ _ _ (.refl _))

theorem takePathStop (k : Kept i s P) (n : StandNo) (h : P u) : P (u.takePathStop n) := by
  unfold State.takePathStop
  split
  · exact k.settle _ (k.flows h ((Flows.refl u).abandonToWaitingWith Flows.forcedTake n _))
  · exact h

theorem takePathStops (k : Kept i s P) (l : List StandNo) {u : State} (h : P u) :
    P (l.foldl (fun u n => u.takePathStop n) u) := by
  induction l generalizing u with
  | nil => exact h
  | cons n rest ih => exact ih (k.takePathStop n h)

theorem expireMotionTimer (k : Kept i s P) (hi : changesWeb i = true ∧ changesTransit i = true) (p : PathNo)
    (order : List StandNo) (h : P s) : P (s.expireMotionTimer p order) := by
  unfold State.expireMotionTimer State.stopPath
  split
  · refine k.takePathStops _ ?_
    exact k.flows (k.web hi.1 _ p _ (k.takeReached hi.2 p h)) (.fileLine _ _ _ (.refl _))
  · exact h

theorem atSettling (k : Kept i s P) (n : StandNo) (key : KeyInput) (level : Bool) {event : State → State}
    (keeps : ∀ u, P u → P (event u)) (h : P s) : P (s.atSettling n key level event) := by
  unfold State.atSettling
  dsimp only
  split
  · exact keeps _ (k.inputs _ _ _ h)
  · exact h

/-- Every row of the table keeps a property that the small changes keep. -/
theorem exec (k : Kept i s P) (h : P s) (e : exec i s = .next t) : P t := by
  have next : ∀ {u : State}, (Host.Outcome.next u : Host.Outcome State Fault Refusal) = .next t → P u → P t :=
    fun e h => by cases e; exact h
  cases i with
  | enterReel e' => exact next e (k.row (by decide) (fun ps _ same hu => k.enterReel ps same hu) e' h)
  | findReel e' => exact next e (k.rowOfActs (by decide) Acts.findReel e' h)
  | fetchReel e' => exact next e (k.rowOfActs (by decide) Acts.fetchReel e' h)
  | amendReel e' => exact next e (k.row (by decide) (fun ps _ same hu => k.amendReel ps same hu) e' h)
  | mountReel e' => exact next e (k.row (by decide) (fun ps _ same hu => k.mountReel ps same hu) e' h)
  | prepareReel e' => exact next e (k.rowOfActs (by decide) Acts.prepareReel e' h)
  | unmountReel e' => exact next e (k.row (by decide) (fun ps _ same hu => k.unmountReel ps same hu) e' h)
  | retireReel e' => exact next e (k.row (by decide) (fun ps _ same hu => k.retireReel ps same hu) e' h)
  | reorder e' => exact next e (k.rowOfActs (by decide) Acts.reorder e' h)
  | standEnable e' => exact next e (k.rowOfActs (by decide) Acts.standEnable e' h)
  | standDisable e' => exact next e (k.rowOfActs (by decide) Acts.standDisable e' h)
  | standReset e' => exact next e (k.rowOfActs (by decide) Acts.standReset e' h)
  | threadReel e' => exact next e (k.rowOfActs (by decide) Acts.threadReel e' h)
  | hold e' => exact next e (k.rowOfActs (by decide) Acts.hold e' h)
  | release e' => exact next e (k.rowOfActs (by decide) Acts.release e' h)
  | spliceSoon e' => exact next e (k.rowOfActs (by decide) Acts.spliceSoon e' h)
  | spliceNow e' => exact next e (k.rowOfActs (by decide) Acts.spliceNow e' h)
  | output e' => exact next e (k.rowOfActs (by decide) Acts.output e' h)
  | fetchStand e' => exact next e (k.rowOfActs (by decide) Acts.fetchStand e' h)
  | profileWrite e' => exact next e (k.rowOfActs (by decide) Acts.profileWrite e' h)
  | profileRead e' => exact next e (k.rowOfActs (by decide) Acts.profileRead e' h)
  | profileChange e' => exact next e (k.rowOfActs (by decide) Acts.profileChange e' h)
  | pathSet e' => exact next e (k.row (by decide) (fun ps _ _ hu => k.pathSet ⟨_, rfl⟩ ps hu) e' h)
  | fetchPath e' => exact next e (k.rowOfActs (by decide) Acts.fetchPath e' h)
  | acceptNotice e' => exact next e (k.row (by decide) (fun ps _ _ hu => k.acceptNotice ps hu) e' h)
  | endNotice e' => exact next e (k.row (by decide) (fun ps _ _ hu => k.endNotice ps hu) e' h)
  | deviceReset e' =>
    refine next e ?_
    have written : P (s.writeCode Command.deviceReset.code) :=
      State.writeCode_keeps k.port (k.reset rfl) _ h
    unfold commandRow
    split
    · exact written
    · exact takeHanded_keeps k.port k.settle (fun _ _ _ hu => hu) _ h
    · split
      · exact takeHanded_keeps k.port k.settle (fun _ _ _ hu => hu) _ written
      · exact written
  | undefinedCommandCode code => exact next e (k.writeRegister 0 code (fun _ => rfl) h)
  | commandCompletion =>
    refine next e ?_
    split
    · exact k.port _ _ h
    · exact h
  | bufferRead =>
    refine next e ?_
    unfold State.readBuffer
    split <;> exact k.port _ _ h
  | bufferWrite value => exact next e (k.writeRegister 3 value (fun e => absurd e (by decide)) h)
  | indexWrite value => exact next e (k.writeRegister 4 value (fun e => absurd e (by decide)) h)
  | classEnableWrite value => exact next e (k.writeRegister 6 value (fun e => absurd e (by decide)) h)
  | portReset value => exact next e (k.writeRegister 7 value (fun e => absurd e (by decide)) h)
  | ignoredRegisterWrite offset value => exact next e (k.writeRegister offset value (fun _ => rfl) h)
  | resetLineAsserted => exact next e (k.reset rfl s _ h)
  | resetLineReleased =>
    refine next e ?_
    split
    · exact k.ready rfl s _ s.inputs h
    · exact h
  | initialisationComplete =>
    refine next e ?_
    split
    · exact k.ready rfl s _ _ h
    · exact h
  | webPulse p since => exact next e (k.event (fun h => k.pulseEdge ⟨rfl, rfl⟩ p since h) h)
  | motionTimerExpiry p order => exact next e (k.event (fun h => k.expireMotionTimer ⟨rfl, rfl⟩ p order h) h)
  | runMark n arm since =>
    exact next e (k.event (fun h => k.markEdge n arm since
      (fun u hu => k.flows hu ((Flows.refl u).takeRunMark n arm)) h) h)
  | runMarkDeadline n => exact next e (k.event (fun h => k.atTarget _ trivial h) h)
  | reckoningStep n => exact next e (k.event (fun h => k.atTarget _ trivial h) h)
  | freshReelMark n arm since =>
    exact next e (k.event (fun h => k.markEdge n arm since (fun u hu => k.takeFreshMark rfl n arm hu) h) h)
  | freshReelMarkDeadline n => exact next e (k.event (fun h => k.atTarget _ trivial h) h)
  | runUpTimerExpiry n =>
    refine next e (k.event (fun h => ?_) h)
    split
    · exact k.flows h ((Flows.refl s).stallSplice n)
    · exact h
  | backoffTimerExpiry n =>
    refine next e (k.event (fun h => ?_) h)
    split
    · exact k.flows h ((Flows.refl s).retry n)
    · exact h
  | paste n => exact next e (k.event (fun h => k.atTarget _ rfl h) h)
  | cut n => exact next e (k.event (fun h => k.atTarget _ trivial h) h)
  | settleTargetReached n => exact next e (k.event (fun h => k.atTarget _ trivial h) h)
  | brakeTimerExpiry n =>
    refine next e (k.event (fun h => ?_) h)
    split
    · exact k.flows h (.outputs n _ (.stand n _ (.refl s) (Nat.le_refl _)))
    · exact h
  | pulseEnd n out => exact next e (k.event (fun h => k.flows h (.outputs n _ (.refl s))) h)
  | rejectStart p position => exact next e (k.event (fun h => k.atTarget _ rfl h) h)
  | rejectEnd p position => exact next e (k.event (fun h => k.atTarget _ rfl h) h)
  | guardCountReached p position => exact next e (k.event (fun h => k.atTarget _ rfl h) h)
  | loadDone n arm =>
    exact next e (k.event (fun h => k.atSettling n _ _
      (fun u hu => k.flows hu ((Flows.refl u).pressLoadDone n arm)) h) h)
  | holdKey n =>
    exact next e (k.event (fun h => k.atSettling n _ _ (fun u hu => k.flows hu ((Flows.refl u).pressHold n)) h) h)
  | spliceKey n =>
    exact next e (k.event (fun h => k.atSettling n _ _ (fun u hu => k.flows hu ((Flows.refl u).pressSplice n)) h) h)
  | webBreak n =>
    exact next e (k.event (fun h => k.atSettling n _ _ (fun u hu => k.flows hu ((Flows.refl u).takeBreak n)) h) h)
  | keyInputChange n key level =>
    refine next e ?_
    unfold State.changeInput
    dsimp only
    split
    · exact h
    · exact k.inputs _ _ _ h
  | filterSettlesInactive n key => exact next e (k.event (fun h => k.atSettling n _ _ (fun _ hu => hu) h) h)

/-- Every step keeps it, where the queue of waiting commands has no part in it. -/
theorem step (k : ∀ i u, Kept i u P) (pending : ∀ (u : State) (q : List Instr), P u → P (u.withPending q)) (h : P s)
    (e : step s = .next t) : P t := by
  unfold Machine.step at e
  split at e
  · cases e
    exact h
  · exact (k _ _).exec (pending _ _ h) e

end Kept

end Sys2Proof.Machine
end

