-- ==== Sys2Proof/Laws/Nesting.lean ====
section
/-! SUPPORT. Forced takes nest no deeper than the bound of Config.forcedNesting (log 20): each nesting but the last turns a permit
from GRANTED to FORCED, and nothing in it grants one. `forcedTake` is therefore its own continuation. -/

namespace Sys2Proof.Machine

/-- The paths whose permit is granted. -/
def grantedPaths (s : State) : Finset PathNo := Finset.univ.filter fun p => ∃ m, (s.arbiter p).permit = .granted m

theorem mem_grantedPaths {s : State} {p : PathNo} : p ∈ grantedPaths s ↔ ∃ m, (s.arbiter p).permit = .granted m := by
  simp [grantedPaths]

theorem Flows.grantedPaths {s t : State} (h : Flows true s t) : grantedPaths t ⊆ grantedPaths s := by
  intro p hp
  obtain ⟨m, e⟩ := mem_grantedPaths.mp hp
  exact mem_grantedPaths.mpr ⟨m, h.granted e⟩

/-- Two forced takes that agree wherever at most `k` permits are granted. -/
def AgreeTo (k : Nat) (f g : StandNo → State → State) : Prop :=
  ∀ n s, (grantedPaths s).card ≤ k → f n s = g n s

namespace AgreeTo

variable {k : Nat} {f g : StandNo → State → State} {s t : State}

/-- The bound goes on along a strict chain. -/
theorem after (h : Flows true s t) (b : (grantedPaths s).card ≤ k) : (grantedPaths t).card ≤ k :=
  Nat.le_trans (Finset.card_le_card h.grantedPaths) b

theorem enterWaitingWith (a : AgreeTo k f g) (b : (grantedPaths s).card ≤ k) (n : StandNo) (l : Option Level) :
    s.enterWaitingWith f n l = s.enterWaitingWith g n l := by
  unfold State.enterWaitingWith
  dsimp only
  rw [a n _ (after (Flows.stand n _ (.refl s) (Nat.le_refl _)) b)]

theorem thresholdEventWith (a : AgreeTo k f g) (b : (grantedPaths s).card ≤ k) (n : StandNo) (th : Threshold) :
    s.thresholdEventWith f n th = s.thresholdEventWith g n th := by
  unfold State.thresholdEventWith State.thresholdInRunning State.thresholdInWaiting
  simp only [a.enterWaitingWith b, a n s b]

theorem testFlagWith (a : AgreeTo k f g) (b : (grantedPaths s).card ≤ k) (n : StandNo) (d : Nat) (th : Threshold) :
    s.testFlagWith f n d th = s.testFlagWith g n d th := by
  unfold State.testFlagWith
  rw [a.thresholdEventWith (after (Flows.stand n _ (.refl s) (by rw [Flows.withThresholdFlag_queue])) b)]

theorem testFlagsWith (a : AgreeTo k f g) (forces : Flows.Forces true g) (b : (grantedPaths s).card ≤ k) (n : StandNo) :
    s.testFlagsWith f n = s.testFlagsWith g n := by
  unfold State.testFlagsWith
  split
  · rfl
  · rename_i r _
    have one := (Flows.refl s).testFlagWith forces n r.diameter .warn
    have two := one.testFlagWith forces n r.diameter .splice
    rw [a.testFlagWith b, a.testFlagWith (after one b), a.testFlagWith (after two b)]

theorem applyProfileWith (a : AgreeTo k f g) (forces : Flows.Forces true g) (b : (grantedPaths s).card ≤ k) (n : StandNo)
    (valid : s.validateProfile n = none) : s.applyProfileWith f n = s.applyProfileWith g n := by
  have copied : Flows true s (s.modProfile n fun q => { q with working := q.staged }) := .apply n (.refl s) valid
  unfold State.applyProfileWith
  dsimp only
  rw [a.testFlagsWith forces (after (copied.recheck _ n) b),
    a.testFlagsWith forces (after (((((copied.clearMarks _ n).clearMarks _ n).moveWatcher n).recheck _ n).moveRequest _ n) b)]

theorem applyDeferredProfileWith (a : AgreeTo k f g) (forces : Flows.Forces true g) (b : (grantedPaths s).card ≤ k)
    (n : StandNo) : s.applyDeferredProfileWith f n = s.applyDeferredProfileWith g n := by
  have cleared : Flows true s (s.modStand n fun st => { st with deferredProfile := false }) :=
    .stand n _ (.refl s) (Nat.le_refl _)
  unfold State.applyDeferredProfileWith
  split
  · dsimp only
    split
    · rfl
    · rename_i valid
      exact a.applyProfileWith forces (after (cleared.setOutcome n _ _) b) n
        ((Flows.validateProfile_setOutcome _ n _ _).trans valid)
  · rfl

theorem abandonToWaitingWith (a : AgreeTo k f g) (forces : Flows.Forces true g) (b : (grantedPaths s).card ≤ k) (n : StandNo)
    (reason : Reason) : s.abandonToWaitingWith f n reason = s.abandonToWaitingWith g n reason := by
  have abandoned := (Flows.refl (strict := true) s).abandon n reason
  unfold State.abandonToWaitingWith
  rw [a.enterWaitingWith (after abandoned b),
    a.applyDeferredProfileWith forces (after (abandoned.enterWaitingWith forces n _) b)]

/-- A forced take is one granted permit away from the forced takes that follow it. -/
theorem forcedTakeWith (a : AgreeTo k f g) (forces : Flows.Forces true g) :
    AgreeTo (k + 1) (State.forcedTakeWith f) (State.forcedTakeWith g) := by
  intro n s b
  have asked := (Flows.refl (strict := true) s).removeRequest (s.pathOf n) n
  have taken := (asked.setForced (s.pathOf n) n).takeByForce n true
  unfold State.forcedTakeWith
  dsimp only
  split
  · rfl
  · rfl
  · rename_i m granted
    refine if_congr Iff.rfl ?_ rfl
    refine a.abandonToWaitingWith forces ?_ m _
    have here : s.pathOf n ∈ grantedPaths s := mem_grantedPaths.mpr ⟨m, granted⟩
    refine Nat.le_of_lt_succ (Nat.lt_of_lt_of_le (Finset.card_lt_card ⟨taken.grantedPaths, fun sub => ?_⟩) b)
    obtain ⟨m', e⟩ := mem_grantedPaths.mp (sub here)
    have seized := ((Flows.refl (strict := true) _).takeByForce n true).granted e
    simp [State.setPermit] at seized

end AgreeTo

theorem forcedTakeTo_agree (d : Nat) : AgreeTo d (State.forcedTakeTo (d + 1)) (State.forcedTakeTo (d + 2)) := by
  induction d with
  | zero =>
    intro n s b
    have none : ∀ m, (s.arbiter (s.pathOf n)).permit ≠ .granted m := fun m e => by
      have := Finset.card_pos.mpr ⟨_, mem_grantedPaths.mpr ⟨m, e⟩⟩
      omega
    show State.forcedTakeWith _ n s = State.forcedTakeWith _ n s
    unfold State.forcedTakeWith
    dsimp only
    split
    · rfl
    · rfl
    · exact absurd ‹_› (none _)
  | succ d ih => exact ih.forcedTakeWith (Flows.forcedTakeTo _)

/-- The bound is never felt: a forced take goes on with forced takes (R125, R126). -/
theorem State.forcedTake_eq (n : StandNo) (s : State) : State.forcedTake n s = State.forcedTakeWith State.forcedTake n s :=
  forcedTakeTo_agree 4 n s (Finset.card_le_univ _)

end Sys2Proof.Machine
end

