-- ==== Sys2Proof/Laws/Numbers.lean ====
section
/-! SUPPORT. The computations of Machine/Flags.lean and Machine/Operands.lean in the mathematics they stand for. -/

namespace Sys2Proof.Machine

/-! ### Counts -/

/-- A count is reached from its own count on for 2^31 pulses, and not in the 2^31 before it (R40). -/
theorem reached_advance (count : Count) (k : Nat) (h : k < 4294967296) :
    reached (advance count k) count = decide (k < 2147483648) := by
  have e : (advance count k - count).toNat = k := by
    unfold advance
    rw [add_sub_cancel_left]
    simp [Nat.mod_eq_of_lt h]
  unfold reached
  rw [e]

theorem reached_self (count : Count) : reached count count = true := by simp [reached]

theorem distanceAfter_advance (count : Count) (k : Nat) (h : k < 4294967296) : distanceAfter count (advance count k) = k := by
  unfold distanceAfter advance
  rw [add_sub_cancel_left]
  simp [Nat.mod_eq_of_lt h]

/-! ### The square root -/

theorem squareRootFrom_spec (n : Nat) : ∀ (bits root : Nat), root * root ≤ n → n < (root + 2 ^ bits) * (root + 2 ^ bits) →
    squareRootFrom n bits root * squareRootFrom n bits root ≤ n ∧
      n < (squareRootFrom n bits root + 1) * (squareRootFrom n bits root + 1)
  | 0, root, low, high => ⟨low, by simpa [squareRootFrom] using high⟩
  | bits + 1, root, low, high => by
    unfold squareRootFrom
    split
    · rename_i up
      refine squareRootFrom_spec n bits _ up ?_
      have e : root + 2 ^ bits + 2 ^ bits = root + 2 ^ (bits + 1) := by rw [Nat.pow_succ]; omega
      rw [e]
      exact high
    · rename_i down
      exact squareRootFrom_spec n bits _ low (Nat.lt_of_not_le down)

/-- The bit by bit square root is the integer square root below 2^40. -/
theorem squareRoot_eq_sqrt (n : Nat) (h : n < 2 ^ 40) : squareRoot n = Nat.sqrt n := by
  have spec := squareRootFrom_spec n 20 0 (Nat.zero_le _) (by norm_num at h ⊢; exact h)
  have low : squareRoot n ≤ Nat.sqrt n := Nat.le_sqrt.mpr spec.1
  have high : Nat.sqrt n < squareRoot n + 1 := Nat.sqrt_lt.mpr spec.2
  omega

/-! ### The fire point -/

/-- The fire point lies in 0 to C - 1 and is the remainder of O - L on division by C (R77). -/
theorem firePointOf_spec (circumference offset lead : Nat) (h : 0 < circumference) :
    firePointOf circumference offset lead < circumference ∧
      ((firePointOf circumference offset lead : Int) = ((offset : Int) - lead) % circumference) := by
  unfold firePointOf
  split
  · rename_i le
    refine ⟨Nat.mod_lt _ h, ?_⟩
    rw [← Int.ofNat_sub le]
    norm_cast
  · rename_i nle
    have lt : offset < lead := Nat.lt_of_not_le nle
    have e : (offset : Int) - lead = -((lead - offset : Nat) : Int) := by
      rw [Int.ofNat_sub (Nat.le_of_lt lt)]; ring
    have m := Nat.mod_lt (lead - offset) h
    rw [e, Int.neg_emod]
    split
    · rename_i zero
      have d : ((circumference : Int)) ∣ ((lead - offset : Nat) : Int) :=
        Int.natCast_dvd_natCast.mpr (Nat.dvd_of_mod_eq_zero zero)
      rw [if_pos d]
      exact ⟨h, rfl⟩
    · rename_i some
      have nd : ¬((circumference : Int)) ∣ ((lead - offset : Nat) : Int) := fun d =>
        some (Nat.mod_eq_zero_of_dvd (Int.natCast_dvd_natCast.mp d))
      rw [if_neg nd]
      refine ⟨by omega, ?_⟩
      rw [Int.ofNat_sub (Nat.le_of_lt m)]
      norm_cast

/-! ### Bytes -/

/-- A number is written in as many bytes as it is given. -/
theorem leBytes_length (bytes v : Nat) : (leBytes bytes v).length = bytes := by
  induction bytes generalizing v with
  | zero => rfl
  | succ k ih => simp [leBytes, ih]

/-- Byte `k` of a number, the least significant first (R178). -/
theorem leBytes_getElem? (bytes v k : Nat) (h : k < bytes) : (leBytes bytes v)[k]? = some (BitVec.ofNat 8 (v / 256 ^ k)) := by
  induction bytes generalizing v k with
  | zero => exact absurd h (Nat.not_lt_zero k)
  | succ bytes ih =>
    cases k with
    | zero => simp [leBytes]
    | succ k =>
      rw [leBytes, List.getElem?_cons_succ, ih _ _ (Nat.lt_of_succ_lt_succ h), Nat.div_div_eq_div_mul, Nat.pow_succ, Nat.mul_comm]

/-- A byte of a reply in the buffer, 0 beyond its end (R177). -/
theorem byteAt_bufferOfReply (reply : List Byte) (position : Nat) (h : position < 24) :
    byteAt (bufferOfReply reply) position = ((reply[position]?).getD 0).toNat := by
  simp [byteAt, bufferOfReply, h]

/-- A number read from the buffer is the sum of its bytes, the least significant first (R178). -/
theorem valueAt_eq_sum (ps : Buffer) (position bytes : Nat) :
    valueAt ps position bytes = ((List.range bytes).map fun k => byteAt ps (position + k) * 256 ^ k).sum := by
  induction bytes generalizing position with
  | zero => rfl
  | succ bytes ih =>
    rw [valueAt, ih, List.range_succ_eq_map, List.map_cons, List.sum_cons, List.map_map, ← List.sum_map_mul_left]
    simp only [Function.comp_def, Nat.add_zero, Nat.pow_zero, Nat.mul_one, Nat.pow_succ]
    congr 2
    refine List.map_congr_left fun k _ => ?_
    rw [show position + 1 + k = position + (k + 1) by omega]
    ring

end Sys2Proof.Machine
end

