-- ==== Sys2Proof/Laws/Targets.lean ====
section
/-! SUPPORT. The targets on the path counters (R40), said once: what the row of a target does, which targets a path has, and what
the taking of those that the last pulse reached leaves alone. -/

namespace Sys2Proof.Machine.State

/-- A target is due when it is pending at a count that its counter has reached. -/
theorem targetDue_iff (s : State) (t : Target) :
    s.targetDue t = true ↔ ∃ c, s.pendingTarget t = some c ∧ reached (s.web (s.targetPath t)).counter c = true := by
  simp [targetDue, Option.any_eq_true]

/-- The event of a target that is pending and reached. -/
theorem atTarget_of_reached (s : State) (t : Target) (c : Count) (pending : s.pendingTarget t = some c)
    (due : reached (s.web (s.targetPath t)).counter c = true) : s.atTarget t = s.takeTarget t c := by
  simp [atTarget, pending, due]

/-- A target that is not due changes nothing. -/
theorem atTarget_of_not_due (s : State) (t : Target) (h : s.targetDue t = false) : s.atTarget t = s := by
  unfold targetDue at h
  unfold atTarget
  split
  · rfl
  · rename_i c pending
    simp only [pending, Option.any_some] at h
    simp [h]

/-- The row of a target that is not due changes nothing where no decision is owed. -/
theorem targetRow_of_not_due (s : State) (t : Target) (owes : ∀ p, (s.arbiter p).decisionDue = false)
    (h : s.targetDue t = false) : targetRow t s = s := by
  unfold targetRow atEvent
  split
  · show (s.atTarget t).settleDecisions = s
    rw [atTarget_of_not_due s t h, settleDecisions_of_none s owes]
  · rfl

/-- The row of a target that is pending and reached. -/
theorem targetRow_of_reached (s : State) (t : Target) (c : Count) (ready : s.phase = .ready) (pending : s.pendingTarget t = some c)
    (due : reached (s.web (s.targetPath t)).counter c = true) : targetRow t s = (s.takeTarget t c).settleDecisions := by
  rw [targetRow, atEvent, if_pos ready, atTarget_of_reached s t c pending due]

theorem takeIfDue_of_due (s : State) (p : PathNo) (t : Target) (ready : s.phase = .ready) (here : s.targetPath t = p)
    (due : s.targetDue t = true) : takeIfDue p s t = targetRow t s := by
  rw [takeIfDue, if_pos ⟨here, due⟩, targetRow, atEvent, if_pos ready]

theorem takeIfDue_of_not (s : State) (p : PathNo) (t : Target) (h : ¬(s.targetPath t = p ∧ s.targetDue t = true)) :
    takeIfDue p s t = s := by rw [takeIfDue, if_neg h]

theorem mem_standTargets (t : Target) : (∃ n, t ∈ standTargets n) ↔
    (match t with | .rejectStart _ _ | .rejectEnd _ _ | .guardCount _ _ => False | _ => True) := by
  cases t <;> simp [standTargets]

/-- The targets of a path: of every stand, and of the records at positions 0 to 3. -/
theorem mem_targetsOf (p : PathNo) (t : Target) : t ∈ targetsOf p ↔
    (match t with
      | .rejectStart q position | .rejectEnd q position | .guardCount q position => q = p ∧ position < 4
      | _ => True) := by
  unfold targetsOf
  rw [List.mem_append, List.mem_flatMap]
  cases t with
  | rejectStart q position | rejectEnd q position | guardCount q position =>
    simp only [transitTargets, standTargets, List.mem_cons, List.not_mem_nil, or_false, false_or, and_false, exists_false,
      reduceCtorEq, Target.rejectStart.injEq, Target.rejectEnd.injEq, Target.guardCount.injEq]
    by_cases same : q = p
    · simp only [same, true_and]
      omega
    · simp only [same, false_and, or_self]
  | _ n => simp [transitTargets, standTargets]

/-- With no target of a path due, there is none to take before its next pulse. -/
theorem takeReached_of_none (s : State) (p : PathNo) (h : ∀ t ∈ targetsOf p, s.targetPath t = p → s.targetDue t = false) :
    s.takeReached p = s := by
  unfold takeReached
  revert h
  induction targetsOf p with
  | nil => exact fun _ => rfl
  | cons t rest ih =>
    intro h
    have head : takeIfDue p s t = s := by
      unfold takeIfDue
      split
      · rename_i due
        simp [h t (by simp) due.1] at due
      · rfl
    rw [List.foldl_cons, head]
    exact ih fun t' m => h t' (by simp [m])

/-- No target changes a web, the phase, the path settings or the queue. -/
theorem keptByTargets (s t : State) : Kept (.rejectStart 0 0) t fun u =>
    u.webs = s.webs ∧ u.phase = s.phase ∧ u.settings = s.settings ∧ u.pending = s.pending where
  port _ _ h := h
  reset h := absurd h (by decide)
  ready h := absurd h (by decide)
  flows h f := ⟨f.webs_eq.trans h.1, f.phase_eq.trans h.2.1, f.settings_eq.trans h.2.2.1, f.pending_eq.trans h.2.2.2⟩
  settle u h :=
    have f := (Flows.refl (strict := false) u).settleDecisions
    ⟨f.webs_eq.trans h.1, f.phase_eq.trans h.2.1, f.settings_eq.trans h.2.2.1, f.pending_eq.trans h.2.2.2⟩
  inputs _ _ _ h := h
  web h := absurd h (by decide)
  paste _ u n k f h := by rw [pasteTransit_eq]; exact h
  startReject _ _ _ _ h := h
  endReject _ _ _ _ h := h
  reachGuard _ _ _ _ h := h
  enter _ _ _ _ _ _ _ h := h
  change _ _ _ _ _ _ _ _ _ h := h
  remove _ _ _ h := h
  accept _ _ _ _ h := h
  discard _ h := h
  enables _ _ h := h
  setting h := by
    obtain ⟨_, e⟩ := h
    cases e

theorem takeIfDue_keeps (s : State) (p : PathNo) (t : Target) :
    (takeIfDue p s t).webs = s.webs ∧ (takeIfDue p s t).phase = s.phase ∧ (takeIfDue p s t).settings = s.settings ∧
      (takeIfDue p s t).pending = s.pending := by
  unfold takeIfDue
  split
  · exact (keptByTargets s s).settle _ ((keptByTargets s s).atTarget t (by split <;> first | rfl | trivial) ⟨rfl, rfl, rfl, rfl⟩)
  · exact ⟨rfl, rfl, rfl, rfl⟩

/-- The taking of reached targets changes no web, no setting, nor the phase or the queue. -/
theorem takeReached_keeps (s : State) (p : PathNo) :
    (s.takeReached p).webs = s.webs ∧ (s.takeReached p).phase = s.phase ∧ (s.takeReached p).settings = s.settings ∧
      (s.takeReached p).pending = s.pending :=
  (keptByTargets s s).takeReached rfl p ⟨rfl, rfl, rfl, rfl⟩

/-- The cut is not taken with the paste where its target is not reached. -/
theorem cutIfReached_of_not (s : State) (n : StandNo) (c : SpliceContext) (held : (s.stand n).context = some c) (t : Count)
    (target : c.knifeTarget = some t) (h : reached (s.countOf n) t = false) : s.cutIfReached n = s := by
  simp [cutIfReached, held, target, h]

end Sys2Proof.Machine.State
end

