-- ==== Sys2Proof/Tests/Slice0.lean ====
section
/-! SUPPORT. The model's own tests: the checks of WellFormed, the worked examples of the spec, and for every statement of
Obligations.lean concrete states that meet its hypotheses, clause by clause, with what the row answers there. -/

namespace Sys2Proof.Tests

open Sys2Proof.Machine Sys2Proof.Safety Sys2Proof.Statements

-- Kernel evaluations one after another: run at once, their threads fill the memory limit of the check.
set_option Elab.async false

/-! ### States and operands -/

/-- A controller that has just become ready. -/
def ready : State := { State.reset with phase := .ready }

/-- A buffer that begins with some bytes. -/
def params (bytes : List Nat) : Buffer := Vector.ofFn fun i => BitVec.ofNat 8 ((bytes[i.val]?).getD 0)

/-- A state with a command handed to its block. -/
def asked (c : Command) (bytes : List Nat) (s : State) : State :=
  s.modPort fun q => { q with command := c.code, busy := true, handed := [⟨c, params bytes, false⟩] }

/-- The next state of an outcome. -/
def next : Host.Outcome State Fault Refusal → State
  | .next s => s
  | _ => State.reset

/-- The state after a row. -/
def after (i : Instr) (s : State) : State := next (exec i s)

/-- The states in which a command's parameters are tried. -/
abbrev Cases := List (List Nat × State)

/-- What the owning block answers, case by case. -/
def answers (c : Command) (cases : Cases) : List (Option Answer) :=
  cases.map fun x => (after (rowOf c (.take 0)) (asked c x.1 x.2)).port.answer

/-- Whether READY is set and no arbiter owes a decision. -/
def restful (s : State) : Bool :=
  decide (s.phase = .ready) && (List.finRange 4).all fun p => !(s.arbiter p).decisionDue

/-- The hypotheses that the statements of commands share hold in every case. -/
def Met (c : Command) (cases : Cases) : Prop :=
  ∀ x ∈ cases, Offered c (params x.1) 0 (asked c x.1 x.2) ∧ NoDecisionOwed (asked c x.1 x.2)

theorem owes_none {s : State} (h : restful s = true) : NoDecisionOwed s := fun p => by
  simp only [restful, Bool.and_eq_true, decide_eq_true_eq, List.all_eq_true] at h
  simpa using h.2 p (List.mem_finRange p)

theorem met {c : Command} {cases : Cases} (h : (cases.all fun x => restful x.2) = true) : Met c cases := fun x m => by
  have r := List.all_eq_true.1 h x m
  have phase : x.2.phase = .ready := by
    simp only [restful, Bool.and_eq_true, decide_eq_true_eq] at r
    exact r.1
  exact ⟨⟨phase, rfl, rfl⟩, owes_none r⟩

/-- A reel as it is entered. -/
def roll : Reel where
  tag := 1
  grade := 5
  width := 2
  core := 80
  diameter := 1200
  caliper := 75
  length := lengthOf 1200 80 75
  offset := none
  state := .staged
  place := none
  mismatch := false
  lock := false
  deadReckoning := false
  stale := false
  spliceNumber := none

/-- A reel on an arm of stand 0. -/
def mounted (arm : Arm) (state : ReelState) (tag : Nat) : Reel := { roll with tag := tag, state := state, place := some ⟨0, arm⟩ }

/-- Stand 0 changed. -/
def at0 (s : State) (f : Stand → Stand) : State := s.modStand 0 f

/-- Stand 0 in a state. -/
def inState (x : StandState) (s : State) : State := at0 s fun st => { st with state := x }

/-- Stand 0 RUNNING on reel 0, reel 1 its candidate and reel 2 mounted; its run-mark watcher has started. -/
def fed : State :=
  (at0 (((ready.setReel 0 (some { mounted .a .running 1 with diameter := 400 })).setReel 1 (some (mounted .b .prepared 2))).setReel 2
      (some (mounted .c .mounted 3))) fun st => { st with state := .running, running := some 0, queue := [1] }).startWatcher 0

/-- The same with an empty queue. -/
def starved : State := at0 fed fun st => { st with queue := [] }

/-- Stand 0 WAITING at a level. -/
def waiting (l : Level) : State :=
  (at0 fed fun st => { st with state := .waiting, level := some l }).setRequest 0 0 (some l)

/-- Stand 0 in RUN-UP after a grant. -/
def runUp : State := (fed.enterWaiting 0 (some .normal)).settleDecisions

/-- Stand 0 in PASTE with its fire point 50 mm after its last mark. -/
def pasting : State :=
  at0 runUp fun st =>
    { st with
      state := .paste
      context := st.context.map fun c =>
        { c with lastMark := some 0, watchArmed := true, watchDeadline := some 7538, firePoint := some 50, phaseTarget := some 50 } }

/-- A path counter at a value. -/
def counted (s : State) (count : Count) : State := s.modWeb 0 fun w => { w with counter := count }

/-- Stand 0 in CUT after a paste at count 50. -/
def cutting : State := after (.paste 0) (counted pasting 50)

/-- Stand 0 in SETTLE after a cut at count 650. -/
def settling : State := after (.cut 0) (counted cutting 650)

/-- A second settle mark, and the settle target reached. -/
def settled : State :=
  counted (at0 settling fun st => { st with context := st.context.map fun c => { c with settleMarks := 2 } }) 5650

/-- The settling timer of an input of stand 0 about to expire with the input active. -/
def pressed (k : KeyInput) (s : State) : State := s.setFilter 0 k ⟨true, false, true⟩

/-- The stand state after a row on stand 0. -/
def stateAfter (i : Instr) (s : State) : StandState := ((after i s).stand 0).state

/-! ### WellFormed -/

theorem test_wellFormed_accepts :
    (Instr.enterReel (.take 3)).wellFormed true = true ∧ (Instr.deviceReset .write).wellFormed true = true ∧
      (Instr.undefinedCommandCode 0x51).wellFormed true = true ∧ (Instr.portReset 1).wellFormed true = true ∧
      (Instr.ignoredRegisterWrite 5 7).wellFormed true = true ∧ (Instr.ignoredRegisterWrite 3 7).wellFormed false = true ∧
      (Instr.motionTimerExpiry 0 [2, 0]).wellFormed true = true ∧ (Instr.rejectEnd 0 3).wellFormed true = true := by decide

theorem test_wellFormed_refuses_taking_deviceReset : (Instr.deviceReset (.take 0)).wellFormed true = false := by decide

theorem test_wellFormed_refuses_defined_codes :
    (Instr.undefinedCommandCode 0x10).wellFormed true = false ∧ (Instr.undefinedCommandCode 0).wellFormed true = false := by decide

theorem test_wellFormed_refuses_portReset_without_bit_0 : (Instr.portReset 0xFE).wellFormed true = false := by decide

theorem test_wellFormed_refuses_ignored_writes_that_act :
    (Instr.ignoredRegisterWrite 3 7).wellFormed true = false ∧ (Instr.ignoredRegisterWrite 0 0x10).wellFormed true = false ∧
      (Instr.ignoredRegisterWrite 7 1).wellFormed true = false := by decide

theorem test_wellFormed_refuses_a_stand_named_twice : (Instr.motionTimerExpiry 0 [2, 2]).wellFormed true = false := by decide

theorem test_wellFormed_refuses_positions_beyond_the_queue :
    (Instr.rejectStart 0 4).wellFormed true = false ∧ (Instr.rejectEnd 0 4).wellFormed true = false ∧
      (Instr.guardCountReached 0 4).wellFormed true = false := by decide

/-! ### Worked examples of the spec -/

/-- 00_scope.md "Arithmetic", section 1.9, Figure 18. -/
theorem test_lengths :
    [lengthOf 1250 100 70, lengthOf 1250 100 72, lengthOf 1100 100 72, lengthOf 1100 100 70, lengthOf 310 100 70,
      lengthOf 308 100 70, lengthOf 306 100 70] = [17419, 16935, 13090, 13464, 966, 952, 938] := by decide

/-- Figure 18. -/
theorem test_samples : [974, 970, 975, 962].map diameterOf = [310, 308, 310, 306] ∧ reckonedDiameter 100 70 951 = 307 ∧
    circumferenceOf 307 = 964 ∧ circumferenceOf 1250 = 3927 := by decide

/-- R77. -/
theorem test_fire_points : firePointOf 3927 200 150 = 50 ∧ firePointOf 3927 0 150 = 3777 ∧ firePointOf 500 999 0 = 499 := by decide

/-- R40, over the wrap of the counter. -/
theorem test_reached : reached 5 5 = true ∧ reached 4 5 = false ∧ reached 3 0xFFFFFFFF = true ∧ reached 0xFFFFFFFF 3 = false := by
  decide

/-- Section 12.1: the counts of splice 211. -/
theorem test_transitCounts : transitCounts 2020348 60000 PathSettings.default = ⟨2079348, 2088348, 2040348⟩ := by decide

/-- Section 12.3: splice 124 merged into record 123. -/
theorem test_merge :
    let r := newRecord 123 6 7046000 7046000 (transitCounts 7046000 90000 PathSettings.default) true false
    let m := mergedRecord r 7051000 (transitCounts 7051000 100000 PathSettings.default) true
    (m.rejectStart, m.rejectEnd, m.guardCount, m.merged, m.forced, m.rejecting, m.guardReached) =
      (7135000, 7159000, 7071000, 1, true, false, false) := by decide

/-- Figure 18: stand 3 on path 1 with handle 7. -/
def stand3 : State :=
  (((ready.setReel 7 (some { roll with core := 100, caliper := 70, diameter := 310, length := 966, state := .running, place := some ⟨3, .a⟩ })).modStand
    3 fun st => { st with state := .running, running := some 7 }).modProfile 3 fun q =>
      { q with working := { q.working with path := 1 } }).modWatcher 3 fun _ =>
    ⟨.timing, some .a, some 1, 1200000, 974, some 1201948, none⟩

/-- What Figure 18 shows of stand 3. -/
def figure18 (s : State) : WatchState × Nat × Option Count × Option (Nat × Nat × Bool) :=
  ((s.watcher 3).state, (s.watcher 3).pLast, (s.watcher 3).deadline,
    (s.reel 7).map fun r => (r.diameter, r.length, r.deadReckoning))

/-- Path 1 at a count. -/
def path1 (count : Count) (s : State) : State := s.modWeb 1 fun w => { w with counter := count }

theorem test_figure18_sample :
    figure18 (after (.runMark 3 .a 9000) (path1 1200970 stand3)) = (.timing, 970, some 1202910, some (308, 952, false)) := by
  decide +kernel

theorem test_figure18_discarded :
    figure18 (after (.runMark 3 .a 9000) (path1 1200990 stand3)) = (.timing, 974, some 1202938, some (310, 966, false)) := by
  decide +kernel

theorem test_figure18_lost :
    figure18 (after (.runMarkDeadline 3) (path1 1201948 stand3)) = (.reckoning, 974, none, some (310, 966, true)) := by
  decide +kernel

/-- Stand 3 in dead reckoning. -/
def reckoning3 : State := after (.runMarkDeadline 3) (path1 1201948 stand3)

theorem test_figure18_step :
    figure18 (after (.reckoningStep 3) (path1 1202948 reckoning3)) = (.reckoning, 974, none, some (309, 965, true)) := by
  decide +kernel

theorem test_figure18_restored :
    figure18 (after (.runMark 3 .a 9000) (path1 1203000 reckoning3)) = (.timing, 973, some 1204946, some (310, 966, false)) := by
  decide +kernel

/-! ### The machine: states that meet the hypotheses -/

theorem test_witness_StepTakesTheFrontCommand :
    (ready.withPending [.commandCompletion, .bufferRead]).pending = .commandCompletion :: [.bufferRead] := rfl

/-- A state of each kind of the invariants: stand 0 in RUN-UP after a grant, its candidate locked, a step waiting. -/
def busyLine : State := (asked .fetchReel [0] runUp).withPending [.webPulse 0 40]

theorem test_step_next : next (step busyLine) ≠ busyLine ∧ ∃ t, step busyLine = .next t := ⟨by decide +kernel, _, rfl⟩

theorem test_witness_SrqFollowsItsCondition : SrqFollows busyLine := by unfold SrqFollows; decide +kernel

theorem test_witness_TransitQueuesAreFollowed :
    RejectFollows (after (.paste 0) (counted pasting 50)) ∧ PathClearFollows (after (.paste 0) (counted pasting 50)) ∧
      TransitQueuesBounded (after (.paste 0) (counted pasting 50)) := by
  unfold RejectFollows PathClearFollows TransitQueuesBounded
  decide +kernel

theorem test_witness_OrderQueuesHoldAtMostTwo : OrderQueuesBounded (at0 busyLine fun st => { st with queue := [1, 2] }) := by
  unfold OrderQueuesBounded
  decide +kernel

theorem test_witness_WorkingProfilesStaySound : SettingsInRange busyLine ∧ WorkingProfilesSound busyLine := by
  unfold SettingsInRange WorkingProfilesSound ProfileSound
  decide +kernel

theorem test_witness_TagsAndPlacesStayDistinct : TagsDistinct busyLine ∧ PlacesDistinct busyLine := by
  have tags : ∀ h k : Handle, (busyLine.reel h).map (·.tag) = (busyLine.reel k).map (·.tag) → h = k ∨ busyLine.reel h = none := by
    decide +kernel
  have places : ∀ h k : Handle, (busyLine.reel h).bind (·.place) = (busyLine.reel k).bind (·.place) →
      h = k ∨ (busyLine.reel h).bind (·.place) = none := by decide +kernel
  exact ⟨fun h k r q x y e => (tags h k (by simp [x, y, e])).resolve_right (by simp [x]),
    fun h k r q p x y e f => (places h k (by simp [x, y, e, f])).resolve_right (by simp [x, e])⟩

theorem test_witness_NoArbiterRestsWithAGrantToMake :
    NoDecisionOwed busyLine ∧ PathClearFollows busyLine ∧ NoArbiterIdles busyLine := by
  unfold NoDecisionOwed PathClearFollows NoArbiterIdles
  decide +kernel

theorem test_witness_OneCommandIsInProgressWhileBusy : OneCommandInProgress busyLine ∧ OneCommandInProgress ready := by
  unfold OneCommandInProgress commandsInProgress
  decide +kernel

/-! ### The Press Port -/

/-- A busy port. -/
def busy : State := ready.modPort fun q => { q with busy := true }

theorem test_witness_CodeWriteTakesTheCommand :
    ready.phase = .ready ∧ ready.port.busy = false ∧ (∀ c : Command, c.code ≠ 0x51) ∧ (0x51 : Byte) ≠ 0 :=
  ⟨rfl, rfl, fun c => by cases c <;> decide, by decide⟩

theorem test_codeWrite :
    (after (.hold .write) ready).port.command = 0x24 ∧ (after (.hold .write) ready).port.busy = true ∧
      (after (.undefinedCommandCode 0x51) ready).port.result = 0x10 := by decide +kernel

theorem test_witness_BusyPortIgnoresWrites : busy.phase = .ready ∧ busy.port.busy = true := ⟨rfl, rfl⟩

theorem test_busyPort : (after (.bufferWrite 7) busy).port.overrun = true ∧ (after (.hold .write) busy).port.overrun = true := by
  decide +kernel

/-- A command answered by its block. -/
def answeredPort : State := busy.modPort fun q => { q with answer := some ⟨.done, [3, 4]⟩ }

theorem test_witness_CompletionWritesTheAnswer : answeredPort.port.answer = some ⟨.done, [3, 4]⟩ := rfl

theorem test_completion :
    let u := after .commandCompletion answeredPort
    (u.port.result, u.port.busy, u.port.index.val, byteAt u.port.buffer 0, byteAt u.port.buffer 1, byteAt u.port.buffer 2) =
      (0x01, false, 0, 3, 4, 0) := by decide +kernel

/-- The index at its last position. -/
def atEnd : State := ready.modPort fun q => { q with index := 23 }

theorem test_witness_BufferAccessMovesTheIndex :
    (ready.phase = .ready ∧ ready.port.busy = false ∧ ready.port.index.val = 0) ∧
      (atEnd.phase = .ready ∧ atEnd.port.busy = false ∧ atEnd.port.index.val = 23) ∧ 24 ≤ (24 : Byte).toNat ∧
      State.reset.phase ≠ .ready :=
  ⟨⟨rfl, rfl, rfl⟩, ⟨rfl, rfl, rfl⟩, by decide, by decide⟩

theorem test_bufferAccess :
    (after .bufferRead ready).port.index.val = 1 ∧ (after .bufferRead atEnd).port.index.val = 0 ∧
      (after (.bufferWrite 9) atEnd).port.buffer[23] = 9 ∧ (after (.indexWrite 23) ready).port.index.val = 23 ∧
      after (.indexWrite 24) atEnd = atEnd ∧
      (let s := { atEnd with phase := .initialising };
        after .bufferRead (s.modPort fun q => { q with dataLines := 9 }) = s.modPort fun q => { q with dataLines := 0 }) := by
  decide +kernel

theorem test_witness_EnablesAndPendingNoticesGiveSrq : ready.phase = .ready := rfl

/-- A LINE notice of source 3 pending, and a REEL notice of source 2. -/
def noticed : State :=
  (ready.fileLine 3 .markLost ⟨some 7, none, none, none⟩).fileReel 2 .mismatch ⟨none, some 4, none, none⟩

theorem test_enables :
    (after (.classEnableWrite 4) noticed).notices.srq = true ∧ (after (.classEnableWrite 2) noticed).notices.srq = false := by
  decide +kernel

/-- A command that a PORT RESET has discarded. -/
def discarded : State := after (.portReset 1) (asked .hold [0] fed)

theorem test_witness_PortResetClearsThePort :
    ((1 : Byte).getLsbD 0 = true ∧ (0xFF : Byte).getLsbD 0 = true ∧ (asked .hold [0] fed).phase = .ready) ∧
      discarded.phase = .ready ∧ discarded.port.handed[0]? = some ⟨.hold, params [0], true⟩ ∧
      mayTake discarded.port.handed 0 ⟨.hold, params [0], true⟩ = true := by decide +kernel

theorem test_portReset : stateAfter (.hold (.take 0)) discarded = .held ∧ (after (.hold (.take 0)) discarded).port.answer = none := by
  decide +kernel

theorem test_witness_IgnoredWritesChangeNothing :
    (ready.phase = .ready ∧ ready.port.busy = false ∧ busy.phase = .ready ∧ busy.port.busy = true ∧
        (0xFE : Byte).getLsbD 0 = false ∧ (Instr.ignoredRegisterWrite 7 0xFE).wellFormed true = true) ∧
      State.reset.phase ≠ .ready := by decide +kernel

theorem test_ignoredWrites :
    ([(1, 255), (2, 255), (5, 255), (7, 0xFE)].map fun x => decide (after (.ignoredRegisterWrite x.1 x.2) busy = busy)) =
      [true, true, true, true] := by decide +kernel

theorem test_witness_RegistersAndCodesAreThoseOfTheFigures : ready.phase = .ready ∧ State.reset.phase ≠ .ready := by decide +kernel

theorem test_registers :
    (List.finRange 8).map (after (.classEnableWrite 4) noticed).readRegister = [0, 0, 0x0A, 0, 0, 0x05, 0x04, 0x2A] := by
  decide +kernel

/-! ### Device reset and inputs -/

/-- The RESET line asserted on a line at work. -/
def inReset : State := after .resetLineAsserted busyLine

theorem test_witness_DeviceResetClearsTheController :
    ready.phase = .ready ∧ ready.port.busy = false ∧ inReset.phase = .inReset ∧ State.reset.phase = .initialising := by
  decide +kernel

theorem test_deviceReset :
    inReset.pending = busyLine.pending ∧ (after .resetLineReleased inReset).phase = .initialising ∧
      (after (.deviceReset .write) fed).reel 0 = none ∧ (after .initialisationComplete State.reset).phase = .ready := by
  decide +kernel

/-- Stand 0's HOLD key down, and a mark of its arm A taken. -/
def keyed : State := (ready.setFilter 0 .hold ⟨true, true, false⟩).modInputs 0 fun i => withMarkTaken i .a

theorem test_deviceReset_inputs :
    [after .resetLineAsserted keyed, after .initialisationComplete { keyed with phase := .initialising }].map (fun s =>
        (markTaken (s.standInputs 0) .a, (filterOf (s.standInputs 0) .hold).input)) = [(false, true), (false, true)] ∧
      markTaken (keyed.standInputs 0) .a = true := by decide +kernel

theorem test_witness_InputsAreFilteredAndIgnoredBeforeReady :
    State.reset.phase ≠ .ready ∧ fieldRow (.webPulse 0 40) = true ∧
      (filterOf (State.reset.standInputs 0) .hold).input ≠ true ∧
      (let f := filterOf (ready.standInputs 11) .webBreak;
        f.input = false ∧ f.input ≠ true ∧ f.settled ≠ true) ∧
      (let f := filterOf ((pressed .hold ready).standInputs 0) .hold;
        f.input ≠ false ∧ f.settled = false) := by decide +kernel

/-- The HOLD key released, its settling timer running. -/
def releasing : State := ready.setFilter 0 .hold ⟨false, true, true⟩

theorem test_witness_FilterSettlesInactive : Settling 0 .hold false releasing := ⟨rfl, by decide +kernel, by decide +kernel⟩

theorem test_filters :
    filterOf ((after (.keyInputChange 0 .hold true) ready).standInputs 0) .hold = ⟨true, false, true⟩ ∧
      filterOf ((after (.keyInputChange 0 .hold false) (pressed .hold ready)).standInputs 0) .hold = ⟨false, false, false⟩ ∧
      filterOf ((after (.filterSettlesInactive 0 .hold) releasing).standInputs 0) .hold = ⟨false, false, false⟩ := by
  decide +kernel

/-! ### Every row -/

/-- Stand 0 in PASTE one count before its target. -/
def early : State := counted pasting 49

theorem test_witness_EveryRowTakesANextState :
    (NoDecisionOwed early ∧ early.pendingTarget (.paste 0) = some 50 ∧
        reached (early.web (early.targetPath (.paste 0))).counter 50 = false ∧ early.pendingTarget (.rejectStart 0 0) = none) ∧
      ((early.web 0).motionTimer = none ∧ beforePaste (fed.stand 0).state = false ∧ (ready.stand 0).runUpTimer = none ∧
        (fed.stand 0).state ≠ .backoff ∧ (fed.stand 0).brakeTimer = none ∧ (fed.output 0).paste = none ∧
        (fed.output 0).knife = none) ∧
      ((filterOf (fed.standInputs 0) .hold).timer = false ∧ (filterOf (releasing.standInputs 0) .hold).input = false ∧
        (filterOf ((pressed .hold fed).standInputs 0) .hold).input = true) ∧
      (State.reset.phase ≠ .ready ∧ fed.port.handed[0]? = none ∧ fed.port.answer = none ∧ fed.phase ≠ .inReset ∧
        fed.phase ≠ .initialising) := by
  unfold NoDecisionOwed
  decide +kernel

theorem test_eventsThatDoNotArise :
    ([rowOfTarget (.paste 0), rowOfTarget (.cut 0), rowOfTarget (.rejectStart 0 0), .motionTimerExpiry 0 [], .backoffTimerExpiry 0,
        .brakeTimerExpiry 0, .pulseEnd 0 .paste, .webBreak 0, .filterSettlesInactive 0 .hold, .hold (.take 0), .commandCompletion,
        .resetLineReleased, .initialisationComplete].map fun i => decide (after i early = early)) = List.replicate 13 true := by
  decide +kernel

theorem test_witness_OnlyPulsesCountAndOnlyPathSetSets :
    (Instr.webPulse 0 40).wellFormed (decide (ready.phase = .ready)) = true ∧
      ((after (.webPulse 0 40) ready).web 0).counter ≠ (ready.web 0).counter ∧
      ((after (.resetLineAsserted) (counted ready 5)).web 0).counter ≠ ((counted ready 5).web 0).counter ∧
      (after (.pathSet (.take 0)) (asked .pathSet [2, 0, 0, 0, 0, 0, 0xe8, 3, 0, 100, 0] ready)).setting 2 ≠ ready.setting 2 := by
  decide +kernel

/-- Stand 0's running reel is about to give a sample of 399 mm. -/
def sampling : State :=
  ((counted fed 1255).modWatcher 0 fun w => { w with state := .timing, reference := 0 }).withPending [.runMark 0 .a 1000]

theorem test_witness_RunningDiameterNeverIncreases :
    (sampling.reel 0).map (fun r => (r.state, r.diameter)) = some (.running, 400) ∧
      ((next (step sampling)).reel 0).map (fun r => (r.state, r.diameter)) = some (.running, 399) := by decide +kernel

/-! ### Numbers and images -/

theorem test_witness_FormulasAreTheSpecs :
    (4294967295 < 4294967296 ∧ ¬4294967295 < 2147483648 ∧ 2147483647 < 2147483648) ∧ (160 ≤ 160 ∧ 150 ≤ 150 ∧ 65535 ≤ 65535) ∧
      reached (0 + BitVec.ofNat 32 2147483647) 0 = true ∧ reached (0 + BitVec.ofNat 32 2147483648) 0 = false ∧
      reckonedDiameter 160 150 65535 = 3541 ∧ inTolerance 3966 3927 10 = true ∧ inTolerance 3967 3927 10 = false ∧
      inTolerance 3888 3927 10 = true ∧ inTolerance 3887 3927 10 = false := by decide +kernel

theorem test_witness_NumbersRoundTripThroughTheBuffer :
    4294967295 < 256 ^ 4 ∧ (List.replicate 20 (0xAA : Byte)).length + 4 ≤ 24 ∧
      valueAt (bufferOfReply (List.replicate 20 (0xAA : Byte) ++ leBytes 4 4294967295 ++ [])) 20 4 = 4294967295 := by decide +kernel

/-- R178: a number of four bytes, written and read, byte by byte. -/
theorem test_leastSignificantByteFirst :
    leBytes 4 0x12345678 = [0x78, 0x56, 0x34, 0x12] ∧ valueAt (params [0xAA, 0x78, 0x56, 0x34, 0x12]) 1 4 = 0x12345678 := by
  decide +kernel

/-- A record with its numbers at the ends of their bytes. -/
def wide : Reel :=
  { roll with tag := 4294967295, grade := 255, width := 255, core := 255, diameter := 65535, caliper := 255, length := 65535, offset := some 65535 }

theorem test_witness_ReelAndNoticeImagesHaveTheirLayout :
    (wide.tag < 4294967296 ∧ wide.grade < 256 ∧ wide.width < 256 ∧ wide.core < 256 ∧ wide.diameter < 65536 ∧
      wide.caliper < 256 ∧ wide.length < 65536) ∧ wide.offset = some 65535 ∧ valueAt (bufferOfReply (reelImage 47 wide)) 8 2 = 65535 := by
  decide +kernel

theorem test_witness_StandImageHasItsLayout :
    (let w : Watcher := { Watcher.reset with pLast := 65535 };
      let q : StandProfile := { StandProfile.reset with failureField := 255 };
      w.pLast < 65536 ∧ q.failureField < 256 ∧ (at0 fed fun st => { st with queue := [1, 2] }).stands[0].queue.length ≤ 2 ∧
        valueAt (bufferOfReply (standStatusImage 0 (fed.stand 0) w q)) 10 2 = 65535) ∧
      ((pasting.stand 0).context.map fun c => (decide (c.circumference < 65536), decide (c.matchCount < 256),
        c.firePoint, decide (c.settleMarks < 256))) = some (true, true, some 50, true) := by decide +kernel

/-- Path 0 with requests and marks of stands 0 and 11. -/
def marked : State :=
  (waiting .urgent).modArbiter 0 fun b =>
    { b with
      requests := b.requests.set 11 (some .early)
      marks := (b.marks.set 0 ⟨true, false, true⟩).set 11 ⟨false, true, false⟩ }

theorem test_witness_PathImageHasItsLayout :
    (marked.transit 0).queue.length ≤ 4 ∧ 4 ≤ 4 ∧ (255 ≤ 255) ∧
      (16777215 < 16777216 ∧ 65535 < 65536) ∧
      (let b := bufferOfReply (pathStatusImage marked 0);
        [byteAt b 11, byteAt b 12, byteAt b 13, valueAt b 14 2, valueAt b 16 2, valueAt b 18 2] = [3, 0, 64, 1, 2048, 1]) := by
  decide +kernel

/-- Log 28. -/
theorem test_partBeyondTheRecords : transitRecordImage 3 4 none = [3, 4, 0] := by decide

/-! ### Commands of the Reel Table: the cases of each clause, and what the block answers -/

/-- ENTER REEL at the ends of its ranges: bytes of tag, grade, width, core, diameter, caliper, presence and offset. -/
def entry (tag : Nat) (rest : List Nat) : List Nat := [tag % 256, tag / 256 % 256, tag / 65536 % 256, tag / 16777216] ++ rest

/-- A table without a free slot. -/
def full : State := { ready with reels := Vector.ofFn fun h => some { roll with tag := h.val + 1 } }

def enterCases : Cases :=
  [(entry 0 [1, 1, 70, 100, 0, 40, 0], ready), (entry 9 [64, 1, 70, 100, 0, 40, 0], ready), (entry 9 [1, 5, 70, 100, 0, 40, 0], ready),
    (entry 9 [1, 1, 69, 100, 0, 40, 0], ready), (entry 9 [1, 1, 160, 159, 0, 40, 0], ready), (entry 9 [1, 1, 70, 100, 0, 151, 0], ready),
    (entry 9 [1, 1, 70, 100, 0, 40, 2], ready), (entry 9 [1, 1, 70, 100, 0, 40, 1, 0xE8, 3], ready),
    (entry 1 [1, 1, 70, 100, 0, 40, 0], fed), (entry 49 [1, 1, 70, 100, 0, 40, 0], full), (entry 1 [1, 1, 70, 100, 0, 40, 0], ready),
    (entry 4294967295 [63, 4, 160, 0x78, 5, 150, 1, 0xE7, 3], fed)]

theorem test_witness_EnterReelCreatesTheRecord : Met .enterReel enterCases ∧ answers .enterReel enterCases =
    List.replicate 8 (some ⟨.badValue, []⟩) ++
      [some ⟨.duplicateTag, []⟩, some ⟨.tableFull, []⟩, some ⟨.done, [0]⟩, some ⟨.done, [3]⟩] :=
  ⟨met (by decide +kernel), by decide +kernel⟩

def findCases : Cases := [(entry 0 [], fed), (entry 9 [], fed), (entry 3 [], fed), (entry 4294967295 [], fed)]

theorem test_witness_FindReelAnswersTheHandleOfTheTag : Met .findReel findCases ∧ answers .findReel findCases =
    [some ⟨.badValue, []⟩, some ⟨.notFound, []⟩, some ⟨.done, [2]⟩, some ⟨.notFound, []⟩] :=
  ⟨met (by decide +kernel), by decide +kernel⟩

def fetchReelCases : Cases := [([3], fed), ([48], fed), ([2], fed)]
def fetchStandCases : Cases := [([12], fed), ([11, 0], fed), ([0, 1], runUp), ([0, 2], fed)]
def fetchPathCases : Cases := [([4], fed), ([3, 0], fed), ([0, 1], cutting), ([0, 4], cutting), ([0, 5], fed), ([0, 6], fed)]

/-- The results of answers with the lengths of their replies. -/
def shapes (c : Command) (cases : Cases) : List (Option (Result × Nat)) :=
  (answers c cases).map fun a => a.map fun a => (a.result, a.reply.length)

theorem test_witness_FetchCommandsAnswerTheImages :
    (Met .fetchReel fetchReelCases ∧ Met .fetchStand fetchStandCases ∧ Met .fetchPath fetchPathCases) ∧
      shapes .fetchReel fetchReelCases = [some (.badHandle, 0), some (.badHandle, 0), some (.done, 21)] ∧
      shapes .fetchStand fetchStandCases = [some (.badStand, 0), some (.done, 14), some (.done, 21), some (.badValue, 0)] ∧
      shapes .fetchPath fetchPathCases =
        [some (.badValue, 0), some (.done, 20), some (.done, 23), some (.done, 3), some (.done, 11), some (.badValue, 0)] :=
  ⟨⟨met (by decide +kernel), met (by decide +kernel), met (by decide +kernel)⟩, by decide +kernel, by decide +kernel,
    by decide +kernel⟩

/-- Handle 4 BUTT on arm C, and handle 2 STAGED. -/
def buttAndStaged : State :=
  (fed.setReel 4 (some { mounted .c .butt 5 with diameter := 100 })).setReel 2 (some { roll with tag := 3 })

def amendCases : Cases :=
  [([9, 0], fed), ([2, 64], fed), ([2, 1, 0], fed), ([2, 12, 0, 0, 160, 100, 0], fed), ([2, 32, 0, 0, 0, 0, 0, 0, 1, 0xE8, 3], fed),
    ([1, 1, 63], fed), ([1, 16, 0, 0, 0, 0, 0, 40], runUp), ([1, 0], runUp), ([0, 32], fed), ([4, 16, 0, 0, 0, 0, 0, 40], buttAndStaged),
    ([2, 63, 63, 4, 160, 160, 0, 150, 1, 0xE7, 3], buttAndStaged), ([0, 16, 0, 0, 0, 0, 0, 150], fed), ([4, 0], buttAndStaged)]

theorem test_witness_AmendReelWritesTheNamedItems : Met .amendReel amendCases ∧ shapes .amendReel amendCases =
    [some (.badHandle, 0), some (.badValue, 0), some (.badValue, 0), some (.badValue, 0), some (.badValue, 0),
      some (.wrongState, 0), some (.inSplice, 0), some (.done, 21), some (.wrongState, 0), some (.wrongState, 0),
      some (.done, 21), some (.done, 21), some (.done, 21)] :=
  ⟨met (by decide +kernel), by decide +kernel⟩

theorem test_amendReel :
    ((after (.amendReel (.take 0)) (asked .amendReel [0, 16, 0, 0, 0, 0, 0, 150] fed)).reel 0).map
      (fun r => (r.caliper, r.diameter, r.length)) = some (150, 400, lengthOf 400 80 150) := by decide +kernel

def mountCases : Cases :=
  [([9, 0, 0], fed), ([2, 12, 0], buttAndStaged), ([2, 11, 3], buttAndStaged), ([1, 11, 0], fed), ([2, 0, 2], buttAndStaged),
    ([2, 11, 2], buttAndStaged)]

theorem test_witness_MountReelPlacesAStagedRecord : Met .mountReel mountCases ∧ answers .mountReel mountCases =
    [some ⟨.badHandle, []⟩, some ⟨.badStand, []⟩, some ⟨.badValue, []⟩, some ⟨.wrongState, []⟩, some ⟨.armOccupied, []⟩,
      some ⟨.done, [2, 1]⟩] :=
  ⟨met (by decide +kernel), by decide +kernel⟩

/-- Stand 0 with a threshold flag set and an empty queue, requiring a grade. -/
def wanting (warn splice : Bool) (grade : Nat) : State :=
  (at0 starved fun st => { st with warn := warn, splice := splice }).modProfile 0 fun q =>
    { q with working := { q.working with requiredGrade := grade } }

theorem test_witness_AnOfferedReelJoinsOrIsRefused :
    (starved.reel 1).map (·.grade) = some 5 ∧
      [((wanting false false 4).offer 0 1).stand 0, ((wanting false false 5).offer 0 1).stand 0, ((wanting true false 0).offer 0 1).stand 0,
          ((wanting true true 0).offer 0 1).stand 0].map (fun st => (st.queue, st.state, st.level)) =
        [([], .running, none), ([1], .running, none), ([1], .waiting, some .normal), ([1], .waiting, some .urgent)] := by
  decide +kernel

/-- Handle 1 PREPARED outside its queue. -/
def outside : State := starved

def prepareCases : Cases :=
  [([9], fed), ([1], fed), ([0], fed), ([2], at0 fed fun st => { st with queue := [1, 3] }), ([1], outside), ([2], fed),
    ([1], wanting false false 4), ([2], buttAndStaged)]

theorem test_witness_PrepareReelAndLoadDoneOfferTheReel : Met .prepareReel prepareCases ∧ answers .prepareReel prepareCases =
    [some ⟨.badHandle, []⟩, some ⟨.wrongState, []⟩, some ⟨.wrongState, []⟩, some ⟨.queueFull, []⟩, some ⟨.done, [1, 2, 1]⟩,
      some ⟨.done, [2, 2, 2]⟩, some ⟨.done, [1, 2, 0]⟩, some ⟨.wrongState, []⟩] :=
  ⟨met (by decide +kernel), by decide +kernel⟩

/-- A press of a key is about to be taken. -/
theorem settling_pressed (k : KeyInput) {s : State} (h : s.phase = .ready) : Settling 0 k true (pressed k s) := by
  have e : filterOf ((pressed k s).standInputs 0) k = ⟨true, false, true⟩ := by
    rw [pressed, State.setFilter, State.standInputs, State.modInputs]
    simp only [Fin.getElem_fin, Vector.getElem_set_self]
    rcases k with (_ | _ | _) | _ | _ | _ <;> rfl
  exact ⟨h, by rw [e], by rw [e]⟩

theorem test_witness_LoadDone :
    Settling 0 (.loadDone .c) true (pressed (.loadDone .c) fed) ∧ Settling 0 (.loadDone .b) true (pressed (.loadDone .b) fed) ∧
      Settling 0 (.loadDone .a) true (pressed (.loadDone .a) ready) :=
  ⟨settling_pressed _ rfl, settling_pressed _ rfl, settling_pressed _ rfl⟩

theorem test_loadDone :
    ((after (.loadDone 0 .c) (pressed (.loadDone .c) fed)).stand 0).queue = [1, 2] ∧
      ((after (.loadDone 0 .b) (pressed (.loadDone .b) fed)).stand 0).queue = [1] ∧
      (after (.loadDone 0 .a) (pressed (.loadDone .a) ready)).notices.reel[0] = some ⟨1, ⟨none, none, none, none⟩⟩ := by
  decide +kernel

/-- WAITING on the one candidate, which is not locked. -/
def leaving : State := waiting .normal

def unmountCases : Cases :=
  [([9], fed), ([0], fed), ([1], runUp), ([2], buttAndStaged), ([2], fed), ([4], buttAndStaged), ([1], leaving)]

theorem test_witness_UnmountReelAndRetireReelTakeTheReel :
    (Met .unmountReel unmountCases ∧ Met .retireReel unmountCases) ∧
      answers .unmountReel unmountCases =
        [some ⟨.badHandle, []⟩, some ⟨.wrongState, []⟩, some ⟨.inSplice, []⟩, some ⟨.wrongState, []⟩, some ⟨.done, [2, 0]⟩,
          some ⟨.done, [4, 0xFF]⟩, some ⟨.done, [1, 0]⟩] ∧
      answers .retireReel unmountCases =
        [some ⟨.badHandle, []⟩, some ⟨.wrongState, []⟩, some ⟨.inSplice, []⟩, some ⟨.done, [2, 3, 0, 0, 0]⟩,
          some ⟨.done, [2, 3, 0, 0, 0]⟩, some ⟨.done, [4, 5, 0, 0, 0]⟩, some ⟨.done, [1, 2, 0, 0, 0]⟩] :=
  ⟨⟨met (by decide +kernel), met (by decide +kernel)⟩, by decide +kernel, by decide +kernel⟩

theorem test_witness_TheLeaveOfAHeadIsAnswered :
    ((leaving.stand 0).queue = [1] ∧ (leaving.stand 0).state = .waiting) ∧
      ((inState .backoff leaving).stand 0).state = .backoff ∧
      ((at0 leaving fun st => { st with queue := [1, 2] }).stand 0).queue.filter (· != 1) ≠ [] ∧
      (let u := leaving.leaveByCommand 0 1;
        (u.stand 0).state = .running ∧ (u.arbiter 0).requests[0] = none ∧
          u.notices.reel[0] = some ⟨4, ⟨some 0, some 1, none, none⟩⟩) := by decide +kernel

/-! ### Commands of a stand -/

def reorderCases : Cases :=
  [([12], fed), ([0], runUp), ([0], fed), ([11], fed), ([0], at0 fed fun st => { st with queue := [1, 2] })]

theorem test_witness_ReorderSwapsTheEntries : Met .reorder reorderCases ∧ answers .reorder reorderCases =
    [some ⟨.badStand, []⟩, some ⟨.inSplice, []⟩, some ⟨.wrongState, []⟩, some ⟨.wrongState, []⟩, some ⟨.done, [2, 1]⟩] :=
  ⟨met (by decide +kernel), by decide +kernel⟩

/-- Stand 0 in OFF with its flags. -/
def off (lock hold : Bool) : State := at0 (inState .off fed) fun st => { st with lock := lock, hold := hold }

def disableCases : Cases := [([12], fed), ([0], off false false), ([0], cutting), ([0], settling), ([0], runUp), ([0], pasting), ([0], fed)]
def enableCases : Cases :=
  [([12], fed), ([0], fed), ([0], runUp), ([0], cutting), ([0], off true true), ([0], off false true), ([0], off false false),
    ([11], ready)]

theorem test_witness_StandDisableAndEnableActByState :
    (Met .standDisable disableCases ∧ Met .standEnable enableCases) ∧
      answers .standDisable disableCases =
        [some ⟨.badStand, []⟩, some ⟨.done, [0]⟩, some ⟨.deferred, [9]⟩, some ⟨.deferred, [10]⟩, some ⟨.done, [0]⟩,
          some ⟨.done, [0]⟩, some ⟨.done, [0]⟩] ∧
      answers .standEnable enableCases =
        [some ⟨.badStand, []⟩, some ⟨.done, [2]⟩, some ⟨.done, [7]⟩, some ⟨.done, [9]⟩, some ⟨.done, [6]⟩, some ⟨.done, [5]⟩,
          some ⟨.done, [2]⟩, some ⟨.done, [1]⟩] :=
  ⟨⟨met (by decide +kernel), met (by decide +kernel)⟩, by decide +kernel, by decide +kernel⟩

def resetCases : Cases := [([12], fed), ([0], cutting), ([0], settling), ([0], runUp), ([0], off true true), ([0], inState .held fed), ([11], ready)]

theorem test_witness_StandResetActsByState : Met .standReset resetCases ∧ answers .standReset resetCases =
    [some ⟨.badStand, []⟩, some ⟨.deferred, [9]⟩, some ⟨.deferred, [10]⟩, some ⟨.done, [2]⟩, some ⟨.done, [0]⟩, some ⟨.done, [2]⟩,
      some ⟨.done, [0]⟩] :=
  ⟨met (by decide +kernel), by decide +kernel⟩

theorem test_standReset :
    let u := after (.standReset (.take 0)) (asked .standReset [0] (runUp.fileLine 0 .markLost ⟨some 0, none, none, none⟩))
    u.notices.line[0] = none ∧ u.notices.splice[0] = some ⟨4, ⟨some 0, some 1, none, some .reset⟩⟩ ∧ (u.arbiter 0).permit = .free ∧
      (u.reel 1).map (·.lock) = some false := by decide +kernel

/-- Stand 0 IDLE, its path standing, its hold flag as given. -/
def idle (hold : Bool) : State := at0 (inState .idle fed) fun st => { st with running := none, hold := hold }

/-- Stand 0 HELD with a running reel that has ended. -/
def ended : State := at0 (inState .held fed) fun st => { st with hold := true, webBroken := true }

def threadCases : Cases :=
  [([0, 9], idle false), ([12, 1], idle false), ([0, 1], fed), ([0, 1], inState .held fed), ([11, 1], at0 (idle false) id),
    ([0, 0], idle false), ([0, 1], (idle false).modWeb 0 fun w => { w with moving := true }), ([0, 1], idle false), ([0, 2], idle true),
    ([0, 2], ended)]

theorem test_witness_ThreadReelMakesTheRunningReel : Met .threadReel threadCases ∧ answers .threadReel threadCases =
    [some ⟨.badHandle, []⟩, some ⟨.badStand, []⟩, some ⟨.wrongState, []⟩, some ⟨.wrongState, []⟩, some ⟨.wrongState, []⟩,
      some ⟨.wrongState, []⟩, some ⟨.pathMoving, []⟩, some ⟨.done, [2, 1]⟩, some ⟨.done, [5, 2]⟩, some ⟨.done, [5, 2]⟩] :=
  ⟨met (by decide +kernel), by decide +kernel⟩

/-- HELD by its hold flag. -/
def held : State := at0 (inState .held fed) fun st => { st with hold := true }

/-- HELD without a running reel. -/
def heldEmpty : State := at0 held fun st => { st with running := none }

def holdCases : Cases :=
  [([12], fed), ([0], held), ([0], fed), ([0], waiting .normal), ([0], runUp), ([0], cutting), ([0], inState .backoff fed), ([11], ready)]
def releaseCases : Cases := [([12], fed), ([0], fed), ([0], held), ([0], heldEmpty), ([0], at0 cutting fun st => { st with hold := true })]

theorem test_witness_HoldAndReleaseActByState :
    (Met .hold holdCases ∧ Met .release releaseCases) ∧
      answers .hold holdCases =
        [some ⟨.badStand, []⟩, some ⟨.done, [5, 1]⟩, some ⟨.done, [5, 1]⟩, some ⟨.done, [5, 1]⟩, some ⟨.done, [5, 1]⟩,
          some ⟨.done, [9, 1]⟩, some ⟨.done, [5, 1]⟩, some ⟨.done, [0, 1]⟩] ∧
      answers .release releaseCases =
        [some ⟨.badStand, []⟩, some ⟨.done, [2, 0]⟩, some ⟨.done, [2, 0]⟩, some ⟨.done, [1, 0]⟩, some ⟨.done, [9, 0]⟩] :=
  ⟨⟨met (by decide +kernel), met (by decide +kernel)⟩, by decide +kernel, by decide +kernel⟩

theorem test_witness_HoldKey :
    Settling 0 .hold true (pressed .hold fed) ∧ Settling 0 .hold true (pressed .hold held) ∧ (runUp.stand 0).context ≠ none :=
  ⟨settling_pressed _ rfl, settling_pressed _ rfl, by decide +kernel⟩

theorem test_holdKey :
    stateAfter (.holdKey 0) (pressed .hold fed) = .held ∧ stateAfter (.holdKey 0) (pressed .hold held) = .running := by decide +kernel

def spliceCases : Cases :=
  [([12], fed), ([0], starved), ([0], runUp), ([0], settling), ([0], held), ([0], fed), ([0], waiting .early), ([0], waiting .urgent),
    ([0], at0 (inState .backoff fed) fun st => { st with level := some .normal })]

theorem test_witness_SpliceCommandsAskForASplice :
    (Met .spliceSoon spliceCases ∧ Met .spliceNow spliceCases) ∧
      answers .spliceSoon spliceCases =
        [some ⟨.badStand, []⟩, some ⟨.noCandidate, []⟩, some ⟨.inSplice, []⟩, some ⟨.noCandidate, []⟩, some ⟨.wrongState, []⟩,
          some ⟨.done, [3, 1]⟩, some ⟨.done, [3, 1]⟩, some ⟨.done, [3, 3]⟩, some ⟨.done, [4, 2]⟩] ∧
      answers .spliceNow spliceCases =
        [some ⟨.badStand, []⟩, some ⟨.noCandidate, []⟩, some ⟨.inSplice, []⟩, some ⟨.noCandidate, []⟩, some ⟨.wrongState, []⟩,
          some ⟨.done, [3, 3]⟩, some ⟨.done, [3, 3]⟩, some ⟨.done, [3, 3]⟩, some ⟨.done, [4, 3]⟩] :=
  ⟨⟨met (by decide +kernel), met (by decide +kernel)⟩, by decide +kernel, by decide +kernel⟩

theorem test_witness_SpliceKey :
    Settling 0 .splice true (pressed .splice fed) ∧ Settling 0 .splice true (pressed .splice (waiting .early)) ∧
      Settling 0 .splice true (pressed .splice (inState .backoff fed)) ∧ Settling 0 .splice true (pressed .splice starved) :=
  ⟨settling_pressed _ rfl, settling_pressed _ rfl, settling_pressed _ rfl, settling_pressed _ rfl⟩

theorem test_spliceKey :
    [fed, waiting .early, inState .backoff fed, starved].map (fun s =>
        let st := (after (.spliceKey 0) (pressed .splice s)).stand 0
        (st.state, st.level)) =
      [(.runUp, some .urgent), (.runUp, some .urgent), (.backoff, some .urgent), (.running, none)] := by decide +kernel

/-- OFF with a pulse running. -/
def pulsing : State := (off false false).modOutputs 0 fun o => { o with paste := some 40 }

def outputCases : Cases :=
  [([12], fed), ([0, 3], off false false), ([0, 0, 3], off false false), ([0, 0, 0, 3], off false false), ([0, 2], fed),
    ([0, 0, 0, 1], pulsing), ([0, 2, 2, 2], pulsing), ([0, 1, 0, 0], pulsing), ([11, 0, 0, 0], ready)]

theorem test_witness_OutputsAreDrivenAsCommanded : Met .output outputCases ∧ answers .output outputCases =
    [some ⟨.badStand, []⟩, some ⟨.badValue, []⟩, some ⟨.badValue, []⟩, some ⟨.badValue, []⟩, some ⟨.wrongState, []⟩,
      some ⟨.wrongState, []⟩, some ⟨.done, [0, 1, 1, 1, 1]⟩, some ⟨.done, [0, 0, 0, 1, 0]⟩, some ⟨.done, [11, 0, 0, 0, 0]⟩] :=
  ⟨met (by decide +kernel), by decide +kernel⟩

theorem test_witness_BrakeTimerExpiry : settling.phase = .ready ∧ (settling.stand 0).brakeTimer ≠ none := by decide +kernel

theorem test_brakeAndPulses :
    (settling.output 0).brake = true ∧ ((after (.brakeTimerExpiry 0) settling).output 0).brake = false ∧
      (settling.output 0).knife = some 40 ∧ ((after (.pulseEnd 0 .knife) settling).output 0).knife = none ∧
      (settling.output 0).paste = some 40 ∧ ((after (.pulseEnd 0 .paste) settling).output 0).paste = none := by decide +kernel

/-! ### Profiles and path settings -/

def writeCases : Cases := [([12, 1], fed), ([0, 0], fed), ([0, 18], fed), ([11, 17, 80, 0, 0, 0], fed), ([0, 1, 255, 255, 255, 255], runUp)]
def readCases : Cases := [([12, 1], fed), ([0, 0, 0], fed), ([0, 18, 0], fed), ([0, 1, 2], fed), ([11, 4, 0], fed), ([0, 17, 1], fed)]
def pathSetCases : Cases :=
  [([4], fed), ([0, 0xA1, 0x86, 1, 0, 0, 0xE8, 3, 0, 100, 0], fed), ([0, 0, 0, 0, 0x11, 0x27, 0xE8, 3, 0, 100, 0], fed),
    ([0, 0, 0, 0, 0, 0, 0xE7, 3, 0, 100, 0], fed), ([0, 0, 0, 0, 0, 0, 0xE8, 3, 0, 99, 0], fed),
    ([0, 0, 0, 0, 0x10, 0x27, 0xE8, 3, 0, 100, 0], fed.modProfile 3 fun q => { q with working := { q.working with gateDistance := 9999 } }),
    ([0, 0xA0, 0x86, 1, 0x10, 0x27, 0xA0, 0x86, 1, 0x88, 0x13], fed)]

theorem test_witness_ProfilesAndSettingsAreWritten :
    (Met .profileWrite writeCases ∧ Met .profileRead readCases ∧ Met .pathSet pathSetCases) ∧
      answers .profileWrite writeCases =
        [some ⟨.badStand, []⟩, some ⟨.badValue, []⟩, some ⟨.badValue, []⟩, some ⟨.done, [11, 17, 80, 0, 0, 0]⟩,
          some ⟨.done, [0, 1, 255, 255, 255, 255]⟩] ∧
      answers .profileRead readCases =
        [some ⟨.badStand, []⟩, some ⟨.badValue, []⟩, some ⟨.badValue, []⟩, some ⟨.badValue, []⟩,
          some ⟨.done, [11, 4, 0, 44, 1, 0, 0]⟩, some ⟨.done, [0, 17, 1, 40, 0, 0, 0]⟩] ∧
      answers .pathSet pathSetCases =
        [some ⟨.badValue, []⟩, some ⟨.badValue, []⟩, some ⟨.badValue, []⟩, some ⟨.badValue, []⟩, some ⟨.badValue, []⟩,
          some ⟨.badProfile, [3]⟩, some ⟨.done, [0xA0, 0x86, 1, 0x10, 0x27, 0xA0, 0x86, 1, 0x88, 0x13]⟩] :=
  ⟨⟨met (by decide +kernel), met (by decide +kernel), met (by decide +kernel)⟩, by decide +kernel, by decide +kernel,
    by decide +kernel⟩

/-- Stand 0 with a change in its staged profile. -/
def staging (f : Profile → Profile) (s : State) : State := s.modProfile 0 fun q => { q with staged := f q.staged }

def changeCases : Cases :=
  [([12], fed), ([0], runUp), ([0], settling), ([0], staging (fun w => { w with path := 4 }) fed),
    ([0], staging (fun w => { w with pulseWidth := 30 }) fed), ([0], staging (fun w => { w with warnDiameter := 200 }) fed),
    ([0], staging (fun w => { w with gateDistance := 1000 }) (fed.setSetting 0 { PathSettings.default with rejectLead := 1001 })),
    ([0], fed), ([0], staging (fun w => { w with warnDiameter := 400 }) fed),
    ([0], staging (fun w => { w with path := 1 }) (waiting .normal)), ([0], staging (fun w => { w with requiredGrade := 4 }) (waiting .normal))]

theorem test_witness_ProfileChangeValidatesAndApplies : Met .profileChange changeCases ∧ answers .profileChange changeCases =
    [some ⟨.badStand, []⟩, some ⟨.deferred, []⟩, some ⟨.deferred, []⟩, some ⟨.badProfile, [1]⟩, some ⟨.badProfile, [17]⟩,
      some ⟨.badProfile, [5]⟩, some ⟨.badProfile, [10]⟩, some ⟨.done, [2]⟩, some ⟨.done, [3]⟩, some ⟨.done, [3]⟩, some ⟨.done, [2]⟩] :=
  ⟨met (by decide +kernel), by decide +kernel⟩

/-- A change of path on a WAITING stand. -/
def moving0 : State :=
  after (.profileChange (.take 0)) (asked .profileChange [0] (staging (fun w => { w with path := 1 }) (waiting .normal)))

theorem test_movedRequest :
    (moving0.pathOf 0).val = 1 ∧ (moving0.arbiter 0).requests[0] = none ∧ (moving0.arbiter 1).permit = .granted 0 ∧
      (moving0.watcher 0).path = some 1 := by decide +kernel

/-- Two entries, of grades 5 and 6, offered again to a profile that requires a grade. -/
def graded (grade : Nat) : State :=
  (at0 (fed.setReel 2 (some { mounted .c .prepared 3 with grade := 6 })) fun st => { st with queue := [1, 2] }).modProfile 0 fun q =>
    { q with working := { q.working with requiredGrade := grade } }

theorem test_witness_recheck :
    [0, 5, 6, 7].map (fun g => (((graded g).recheck 0 0).stand 0).queue) = [[1, 2], [1], [2], []] ∧
      (((at0 (graded 6) fun st => { st with queue := [1] }).recheck 0 0).stand 0).queue = [] ∧
      (((at0 (graded 7) fun st => { st with state := .backoff }).recheck 0 0).notices.reel[0]) = some ⟨6, ⟨some 0, some 2, none, none⟩⟩ := by
  decide +kernel

/-- A deferred PROFILE CHANGE. -/
def deferred : State := at0 (staging (fun w => { w with path := 4 }) fed) fun st => { st with deferredProfile := true }

theorem test_witness_deferredProfile :
    ((deferred.stand 0).deferredProfile = true ∧ splicing (deferred.stand 0).state = false) ∧
      ((deferred.applyDeferredProfile 0).profile 0).outcome = .refused ∧
      (((staging (fun w => { w with path := 1 }) deferred).applyDeferredProfile 0).profile 0).outcome = .applied := by
  decide +kernel

/-! ### Notices -/

/-- Figure 39 at its start. -/
def figure39 : State :=
  let s := ((ready.fileLine 3 .markLost ⟨some 7, none, none, none⟩).fileLine 9 .webBreak ⟨some 30, none, none, none⟩).fileLine 13
    .pathStopped ⟨none, none, none, none⟩
  s.modNotices fun u => { u with linePointer := 2 }

/-- A notice open. -/
def opened : State := figure39.modNotices fun u => { u with opened := some ⟨4, .reel, ⟨2, ⟨none, none, none, none⟩⟩⟩ }

def acceptCases : Cases :=
  [([3], ready), ([0], opened), ([2], opened), ([0], figure39), ([2], figure39),
    ([2], figure39.modNotices fun u => { u with linePointer := 3 }), ([2], figure39.modNotices fun u => { u with linePointer := 13 }),
    ([2], (figure39.modNotices fun u => { u with line := (u.line.set 9 none).set 13 none, linePointer := 3 }))]
def endCases : Cases := [([], ready), ([], opened)]

theorem test_witness_NoticesAreGatheredAcceptedAndEnded :
    (Met .acceptNotice acceptCases ∧ Met .endNotice endCases) ∧
      (answers .acceptNotice acceptCases).map (·.map fun a => (a.result, a.reply.take 3)) =
        [some (.badValue, []), some (.noticeOpen, [4, 0, 2]), some (.noticeOpen, [4, 0, 2]), some (.noNotice, []),
          some (.done, [3, 2, 1]), some (.done, [9, 2, 4]), some (.done, [3, 2, 1]), some (.done, [3, 2, 1])] ∧
      answers .endNotice endCases = [some ⟨.noneOpen, []⟩, some ⟨.done, [4, 0]⟩] :=
  ⟨⟨met (by decide +kernel), met (by decide +kernel)⟩, by decide +kernel, by decide +kernel⟩

theorem test_gathered :
    ((figure39.fileLine 3 .markRestored ⟨none, none, none, none⟩).notices.line[3]) = some ⟨3, ⟨none, none, none, none⟩⟩ := by
  decide +kernel

/-! ### The web and its measurement -/

/-- Path 0 MOVING after a pulse. -/
def moving : State := after (.webPulse 0 0) ready

theorem test_witness_PulsesCountAndTheWebStops :
    (ready.phase = .ready ∧ (ready.web 0).pulseTaken = false ∧ (ready.web 0).moving = false) ∧
      ((moving.web 0).pulseTaken = true ∧ (moving.web 0).moving = true ∧ (moving.web 0).motionTimer ≠ none ∧ 39 < 40) ∧
      beforePaste (runUp.stand 0).state = true ∧ beforePaste (fed.stand 0).state = false := by decide +kernel

theorem test_webPulse :
    [after (.webPulse 0 39) moving, after (.webPulse 0 40) moving].map (fun s => (s.web 0).counter) = [1, 2] ∧
      (after (.webPulse 0 0) (counted ready 0xFFFFFFFF)).web 0 = ⟨0, true, some 500, true⟩ ∧
      (moving.notices.line[12]).map (·.causes) = some 0x20 := by decide +kernel

/-- The targets of path 0 that are due. -/
def dueOf (s : State) : List Target := (State.targetsOf 0).filter fun t => decide (s.targetPath t = 0) && s.targetDue t

/-- The knife target, the reject start and the guard of a splice, all reached at one pulse. -/
def together : State := counted cutting 59050

theorem test_reachedTargets :
    [counted pasting 49, counted pasting 50, counted cutting 650, together].map (fun s =>
        let u := after (.webPulse 0 40) s
        ((u.stand 0).state, (u.web 0).counter, (u.stand 0).context.bind (·.pasteCount), (u.transit 0).reject,
          (u.arbiter 0).pathClear)) =
      [(.paste, 50, none, false, true), (.cut, 51, some 50, false, false), (.settle, 651, some 50, false, false),
        (.settle, 59051, some 50, true, true)] ∧
      (counted cutting 650).takeReached 0 = leftBy (.cut 0) (counted cutting 650) := by decide +kernel

/-- Path 0 MOVING with stand 0 in RUN-UP. -/
def rolling : State := runUp.modWeb 0 fun w => { w with moving := true, motionTimer := some 500 }

theorem test_motionTimerExpiry :
    let u := after (.motionTimerExpiry 0 [0]) rolling
    (u.web 0).moving = false ∧ (u.notices.line[12]).map (·.causes) = some 0x10 ∧ (u.stand 0).state = .runUp ∧
      u.notices.splice[0] = some ⟨4, ⟨some 0, some 1, none, some .pathStop⟩⟩ ∧
      (after (.motionTimerExpiry 0 []) ready) = ready ∧
      stateAfter (.motionTimerExpiry 0 []) ((counted pasting 50).modWeb 0 fun w => { w with motionTimer := some 500 }) = .cut := by
  decide +kernel

/-- Stand 0's watcher TIMING from count 0. -/
def timing : State := fed.modWatcher 0 fun w => { w with state := .timing }

/-- The same in dead reckoning. -/
def reckoning : State :=
  (fed.modReel 0 fun r => { r with deadReckoning := true }).modWatcher 0 fun w =>
    { w with state := .reckoning, deadline := none, reckoningCount := some 0 }

theorem test_witness_ReachedTargetsAreTakenBeforeTheNextPulse :
    [fed, reckoning, pasting, cutting, settling].map (fun s =>
        [s.pendingTarget (.runMarkDeadline 0), s.pendingTarget (.reckoningStep 0), s.pendingTarget (.freshReelMarkDeadline 0),
          s.pendingTarget (.paste 0), s.pendingTarget (.cut 0), s.pendingTarget (.settle 0)]) =
      [[some 2512, none, none, none, none, none], [none, some 1000, none, none, none, none],
        [some 2512, none, some 7538, some 50, none, none], [some 2512, none, none, none, some 650, none],
        [some 8188, none, none, none, none, some 5650]] ∧
      [cutting.pendingTarget (.rejectStart 0 0), cutting.pendingTarget (.rejectEnd 0 0), cutting.pendingTarget (.guardCount 0 0),
          cutting.pendingTarget (.guardCount 0 1)] = [some 59050, some 68050, some 20050, none] ∧
      dueOf (counted cutting 649) = [] ∧ dueOf (counted cutting 650) = [.cut 0] ∧
      dueOf (leftBy (.cut 0) (counted cutting 650)) = [] ∧
      dueOf together = [.rejectStart 0 0, .guardCount 0 0, .runMarkDeadline 0, .cut 0] := by decide +kernel

/-- An arm A whose last mark has been taken. -/
def spaced (s : State) : State := s.modInputs 0 fun i => withMarkTaken i .a

theorem test_witness_RunMarksMeasureTheRunningReel :
    (markTaken ((spaced fed).standInputs 0) .a = true ∧ ¬(1000 ≤ 999)) ∧ markTaken (fed.standInputs 0) .a = false ∧
      ((fed.watcher 0).arm = some .a ∧ (fed.watcher 0).state = .starting) ∧ (fed.watcher 0).arm ≠ some .b ∧
      ((timing.watcher 0).state = .timing ∧ (timing.stand 0).running = some 0 ∧
        (timing.reel 0).map (fun r => (r.core, r.diameter)) = some (80, 400) ∧ 252 * 10000 / 31416 = 80 ∧ 1259 * 10000 / 31416 = 400 ∧
        251 * 10000 / 31416 = 79 ∧ 1260 * 10000 / 31416 = 401) ∧
      (reckoning.watcher 0).state = .reckoning := by decide +kernel

theorem test_runMark :
    ([251, 252, 1259, 1260].map fun c => ((after (.runMark 0 .a 1000) (counted timing c)).reel 0).map (·.diameter)) =
        [some 400, some 80, some 400, some 400] ∧
      ((after (.runMark 0 .a 999) (spaced fed)).watcher 0).state = .starting ∧
      ((after (.runMark 0 .a 1000) (spaced fed)).watcher 0).state = .timing ∧
      ((after (.runMark 0 .a 0) reckoning).reel 0).map (·.deadReckoning) = some false := by decide +kernel

theorem test_settleMarks :
    let once := after (.runMark 0 .b 1000) (counted settling 700)
    let twice := after (.runMark 0 .b 1000) (counted once 4469)
    (once.stand 0).context.map (·.settleMarks) = some 1 ∧ (twice.stand 0).context.map (·.settleMarks) = some 2 := by decide +kernel

theorem test_witness_TheWatcherFollowsAndReckons :
    ((ready.stand 0).running = none ∧ (fed.stand 0).running = some 0 ∧ (fed.reel 0).map (·.deadReckoning) = some false ∧
        (reckoning.reel 0).map (·.deadReckoning) = some true) ∧
      ((ready.watcher 0).state = .idle ∧ (fed.watcher 0).state = .starting ∧ (timing.watcher 0).state = .timing ∧
        (reckoning.watcher 0).state = .reckoning) ∧
      ((fed.watcher 0).deadline = some 2512 ∧ reached 2512 2512 = true ∧ reached 2511 2512 = false) ∧
      ((reckoning.watcher 0).reckoningCount = some 0 ∧ reached ((counted reckoning 1000).countOf 0) (0 + 1000) = true) := by
  decide +kernel

/-! ### Thresholds, permits and decisions -/

/-- Stand 0's running reel at a diameter. -/
def worn (diameter : Nat) (s : State) : State := s.modReel 0 fun r => { r with diameter := diameter }

theorem test_witness_ThresholdEventsAreTakenByState :
    ([300, 301, 200, 150].map fun d => (((worn d starved).testFlags 0).stand 0)).map (fun st => (st.warn, st.splice, st.critical)) =
        [(true, false, false), (false, false, false), (true, true, false), (true, true, true)] ∧
      ([worn 300 fed, worn 200 fed, worn 150 fed, worn 300 (waiting .early), worn 200 (waiting .early), worn 150 (waiting .early),
          worn 200 runUp, worn 150 held].map fun s => ((s.testFlags 0).stand 0)).map (fun st => (st.state, st.level)) =
        [(.waiting, some .normal), (.waiting, some .urgent), (.runUp, some .urgent), (.waiting, some .normal), (.waiting, some .urgent),
          (.runUp, some .urgent), (.runUp, some .urgent), (.held, none)] ∧
      ([300, 200, 150].map fun d => ((worn d starved).testFlags 0).notices.reel[0].map (·.causes)) = [some 8, some 8, some 24] ∧
      (thresholdFlag (fed.stand 0) .warn = false ∧ (fed.stand 0).running = some 0 ∧ (ready.stand 0).running = none) := by decide +kernel

theorem test_enterRunning :
    ([(false, false), (true, false), (true, true)].map fun f =>
        ((at0 held fun st => { st with warn := f.1, splice := f.2 }).enterRunning 0).stand 0).map (fun st => (st.state, st.level)) =
      [(.running, none), (.waiting, some .normal), (.waiting, some .urgent)] := by decide +kernel

/-- Stand 4 WAITING at URGENT with its critical flag set, beside stand 0 on path 0. -/
def rival (s : State) : State :=
  ((s.setReel 8 (some { roll with tag := 9, state := .running, place := some ⟨4, .a⟩ })).setReel 9
    (some { roll with tag := 10, state := .prepared, place := some ⟨4, .b⟩ })).modStand 4 fun st =>
      { st with state := .waiting, level := some .urgent, running := some 8, queue := [9], warn := true, splice := true, critical := true }

/-- The permit, and the states of stands 0 and 4. -/
def contest (s : State) : Permit × StandState × StandState × Option Bool × Option Bool :=
  ((s.arbiter 0).permit, (s.stand 0).state, (s.stand 4).state, (s.stand 0).context.map (·.permitHeld),
    (s.stand 4).context.map (·.permitHeld))

/-- Stand 0 in RUN-UP with a deferred change to path 1. -/
def deferring : State :=
  (at0 runUp fun st => { st with deferredProfile := true }).modProfile 0 fun q => { q with staged := { q.staged with path := 1 } }

theorem test_witness_SplicesAreTakenByForceOverAHolder :
    ((fed.stand 0).critical = false ∧ ((rival fed).stand 4).critical = true ∧ ((rival fed).stand 4).queue.head? = some 9) ∧
      ((fed.arbiter 0).permit = .free ∧ (((rival runUp).setPermit 0 (.forced 7)).arbiter 0).permit = .forced 7) ∧
      (((rival runUp).arbiter 0).permit = .granted 0 ∧ beforePaste ((rival runUp).stand 0).state = true ∧
        (rival runUp).pathOf 0 = (rival runUp).pathOf 4 ∧ ((rival deferring).stand 0).deferredProfile = true ∧
        ((rival deferring).arbiter 0).permit = .granted 0) := by decide +kernel

theorem test_forcedTake :
    [State.forcedTake 4 (rival fed), State.forcedTake 4 ((rival fed).setPermit 0 (.forced 7)), State.forcedTake 4 (rival runUp),
        State.forcedTake 4 (at0 (rival runUp) fun st => { st with critical := true })].map contest =
      [(.forced 4, .running, .runUp, none, some true), (.forced 7, .running, .runUp, none, some false),
        (.forced 4, .waiting, .runUp, none, some true), (.forced 4, .runUp, .runUp, some false, some true)] ∧
      (let u := State.forcedTake 4 (rival deferring);
        (u.stand 0).state = .waiting ∧ (u.pathOf 0).val = 1 ∧ (u.arbiter 0).requests[0] = none ∧ (u.arbiter 1).requests[0] = some .normal ∧
          (u.profile 0).outcome = .applied) := by decide +kernel

/-- Stands 2, 5 and 11 of path 0 waiting at NORMAL, with fair-share marks as given. -/
def queued (marks : List StandNo) : State :=
  (ready.modArbiter 0 fun b =>
    { b with
      requests := ((b.requests.set 2 (some .normal)).set 5 (some .normal)).set 11 (some .early)
      marks := Vector.ofFn fun n : Fin 12 => if n ∈ marks then ⟨false, true, false⟩ else Marks.clear
      decisionDue := true })

/-- The arbiters of paths 0 and 1 both owing a decision. -/
def twoDue : State :=
  (queued []).modArbiter 1 fun b => { b with requests := b.requests.set 0 (some .early), decisionDue := true }

theorem test_witness_ArbitersDecideByLevelAndFairShare :
    ((∀ q : PathNo, q ≠ 0 → ((queued []).arbiter q).decisionDue = false) ∧ ((queued []).arbiter 0).decisionDue = true) ∧
      (((queued []).arbiter 0).permit = .free ∧ ((queued []).arbiter 0).pathClear = true) ∧
      ((twoDue.arbiter 0).decisionDue = true ∧ (twoDue.arbiter 1).decisionDue = true ∧
        (twoDue.settleDecisions.arbiter 0).permit = .granted 2 ∧ (twoDue.settleDecisions.arbiter 1).permit = .granted 0) ∧
      ([queued [], queued [2], queued [2, 5], queued [2, 5, 11]].map fun s =>
          let b := (s.settleDecisions.arbiter 0); (b.permit, b.marks.toList.map (·.normal))).map (fun x => (x.1, x.2[2]?, x.2[5]?, x.2[11]?)) =
        [(.granted 2, some true, some false, some false), (.granted 5, some true, some true, some false),
          (.granted 2, some true, some false, some false), (.granted 2, some true, some false, some false)] := by decide +kernel

/-- Stand 0 splicing without the permit, which has become FREE. -/
def unheld : State :=
  (at0 (runUp.setPermit 0 .free) fun st => { st with context := st.context.map fun c => { c with forced := true, permitHeld := false } })

theorem test_witness_adoption :
    (unheld.arbiter 0).permit = .free ∧ (unheld.stand 0).context.map (fun c => (c.forced, c.permitHeld)) = some (true, false) ∧
      ((unheld.decision 0).arbiter 0).permit = .forced 0 ∧ ((unheld.decision 0).stand 0).context.map (·.permitHeld) = some true ∧
      ((queued []).modArbiter 0 fun b => { b with pathClear := false }).decision 0 =
        (queued []).modArbiter 0 fun b => { b with pathClear := false } := by decide +kernel

/-! ### Abandonment, fresh-reel marks, the paste -/

/-- Stand 0's splice with its watch deadline reached. -/
def lost : State := counted pasting 7538

/-- Stand 0 in BACKOFF at a level with its timer running. -/
def backing (l : Level) (s : State) : State := at0 s fun st => { st with state := .backoff, level := some l, backoffTimer := some 10 }

theorem test_witness_AbandonedSplicesBackOffAndRetry :
    ((fed.stand 0).context = none ∧ (runUp.stand 0).context.map (·.permitHeld) = some true ∧
        (unheld.stand 0).context.map (·.permitHeld) = some false) ∧
      (lost.phase = .ready ∧ (lost.stand 0).state = .paste ∧ ((lost.stand 0).context.bind (·.watchDeadline)) = some 7538 ∧
        reached (lost.countOf 0) 7538 = true) ∧
      ((runUp.stand 0).runUpTimer ≠ none ∧ (runUp.stand 0).stall = false) ∧
      (((backing .early fed).stand 0).backoffTimer ≠ none ∧ ((backing .early starved).stand 0).queue = []) := by decide +kernel

theorem test_abandoned :
    stateAfter (.freshReelMarkDeadline 0) lost = .backoff ∧ stateAfter (.runUpTimerExpiry 0) runUp = .backoff ∧
      ((after (.runUpTimerExpiry 0) runUp).arbiter 0).permit = .free ∧
      (let u := after (.runUpTimerExpiry 0) (at0 runUp fun st => { st with stall := true });
        (u.stand 0).state = .locked ∧ u.notices.splice[0] = some ⟨0x14, ⟨some 0, some 1, none, none⟩⟩) := by decide +kernel

theorem test_backoff :
    stateAfter (.backoffTimerExpiry 0) (backing .early starved) = .running ∧
      ([backing .early fed, backing .early (at0 fed fun st => { st with warn := true }),
          backing .urgent (at0 fed fun st => { st with warn := true })].map fun s => ((after (.backoffTimerExpiry 0) s).stand 0).level) =
        [some .early, some .normal, some .urgent] := by decide +kernel

/-- Stand 0 in RUN-UP with a last mark at count 0 and a match count. -/
def matching (count : Nat) : State :=
  at0 runUp fun st => { st with context := st.context.map fun c => { c with lastMark := some 0, matchCount := count } }

/-- The same where the fire point is 0. -/
def firing : State := (matching 2).modReel 1 fun r => { r with offset := some 150 }

theorem test_witness_FreshReelMarksMatchTheSpeed :
    ((runUp.stand 0).context.map (fun c => (c.freshArm, c.lastMark)) = some (some .b, none) ∧
        ((matching 2).stand 0).context.map (fun c => (c.freshArm, c.lastMark)) = some (some .b, some 0)) ∧
      (inTolerance 3732 3769 10 = true ∧ inTolerance 3731 3769 10 = false ∧ (runUp.working 0).matchRevolutions = 3) ∧
      (firePointOf 3769 0 150 = 3619 ∧ firePointOf 3769 150 150 = 0) ∧
      ((pasting.stand 0).context.bind (·.firePoint)) = some 50 ∧ markTaken (runUp.standInputs 0) .b = false := by decide +kernel

theorem test_freshReelMark :
    ([(runUp, 5), (matching 1, 3731), (matching 1, 3732), (matching 2, 3806)].map fun x =>
        (after (.freshReelMark 0 .b 1000) (counted x.1 x.2)).stand 0).map (fun st =>
          (st.state, st.context.map fun c => (c.matchCount, c.watchDeadline, c.phaseTarget))) =
      [(.runUp, some (0, none, none)), (.runUp, some (0, none, none)), (.runUp, some (2, some 11270, none)),
        (.paste, some (3, some 11344, some 7425))] ∧
      stateAfter (.freshReelMark 0 .b 1000) (counted firing 3769) = .cut ∧
      ((after (.freshReelMark 0 .b 1000) (counted pasting 3)).stand 0).context.bind (·.phaseTarget) = some 53 := by decide +kernel

theorem test_witness_ThePasteEntersATransitRecord :
    ((counted pasting 50).phase = .ready ∧ (pasting.stand 0).state = .paste ∧
        ((pasting.stand 0).context.bind (·.phaseTarget)) = some 50 ∧ reached ((counted pasting 50).countOf 0) 50 = true) ∧
      ((pasting.stand 0).context.map (·.permitHeld) = some true ∧ (unheld.stand 0).context.map (·.permitHeld) = some false) ∧
      ((pasting.transit 0).queue = [] ∧ ((cutting.transit 0).queue.map (·.guardReached)) = [false]) := by decide +kernel

/-- The paste of a stand in PASTE at count 50, taken at a count of its path. -/
def pastedAt (count : Count) : Option State :=
  ((counted pasting count).stand 0).context.map fun c => (counted pasting count).takePaste 0 c 50

theorem test_witness_takePaste :
    (reached 649 (50 + 600) = false ∧ reached 650 (50 + 600) = true ∧ (pasting.working 0).knifeDistance = 600) ∧
      ([649, 650].map fun c => (pastedAt c).map fun s => (s.stand 0).state) = [some .cut, some .settle] := by decide +kernel

/-- A transit queue with records whose guards are reached. -/
def records (k : Nat) (s : State) : State :=
  s.modTransit 0 fun t =>
    { t with queue := List.replicate k { newRecord 5 1 0 0 (transitCounts 0 60000 PathSettings.default) false false with guardReached := true } }

theorem test_paste :
    (cutting.stand 0).state = .cut ∧ (cutting.arbiter 0).permit = .free ∧ (cutting.arbiter 0).pathClear = false ∧
      (cutting.transit 0).queue.map (fun r => (r.rejectStart, r.rejectEnd, r.guardCount, r.overlap)) = [(59050, 68050, 20050, false)] ∧
      ((cutting.pasteTransit 0 60 true).transit 0).queue.map (·.overlap) = [false, true] ∧
      ((records 4 pasting).transit 0).queue.length = 4 ∧
      (((records 4 pasting).pasteTransit 0 60 true).transit 0).queue.map (·.merged) = [0, 0, 0, 1] := by decide +kernel

theorem test_witness_TransitTargetsAreTaken :
    (cutting.phase = .ready ∧ ((cutting.transit 0).queue[0]?).map (fun r => (r.rejecting, r.guardReached)) = some (false, false)) ∧
      reached 59050 59050 = true ∧ reached 59049 59050 = false ∧ reached 68050 68050 = true ∧ reached 20050 20050 = true := by
  decide +kernel

theorem test_transitTargets :
    ((after (.rejectStart 0 0) (counted cutting 59050)).transit 0).reject = true ∧
      after (.rejectStart 0 0) (counted cutting 59049) = counted cutting 59049 ∧
      ((after (.rejectEnd 0 0) (counted cutting 68050)).transit 0).queue = [] ∧
      ((after (.guardCountReached 0 0) (counted cutting 20050)).arbiter 0).pathClear = true := by decide +kernel

/-! ### The cut, the end of SETTLE, web breaks -/

/-- A break recorded in CUT. -/
def broken : State := after (.webBreak 0) (pressed .webBreak cutting)

theorem test_witness_TheCutAndTheEndOfSettle :
    ((counted cutting 650).phase = .ready ∧ (cutting.stand 0).context.map (fun c => (c.knifeTarget, c.breakInCut)) = some (some 650, false) ∧
        reached ((counted cutting 650).countOf 0) 650 = true) ∧
      ((broken.stand 0).context.map (·.breakInCut) = some true ∧ (broken.stand 0).webBroken = true) ∧
      ((settled.stand 0).context.map (fun c => (c.settleTarget, c.settleMarks)) = some (some 5650, 2) ∧
        reached (settled.countOf 0) 5650 = true) ∧
      (splicing (fed.stand 0).state = false ∧ ((at0 fed fun st => { st with deferredReset := true }).stand 0).deferredReset = true) ∧
      (let s := at0 runUp fun st => { st with deferredDisable := true };
        ((s.stand 0).deferredReset = false ∧ (s.stand 0).deferredDisable = true ∧ beforePaste (s.stand 0).state = true) ∧
          (((s.applyDeferred 0).stand 0).state = .off ∧ (s.applyDeferred 0).notices.splice[0] =
            some ⟨4, ⟨some 0, some 1, none, some .disable⟩⟩)) := by decide +kernel

theorem test_cut :
    (settling.stand 0).state = .settle ∧ (settling.stand 0).running = some 1 ∧ (settling.reel 0).map (·.state) = some .butt ∧
      (settling.reel 1).map (fun r => (r.state, r.spliceNumber, r.lock)) = some (.running, some 0, false) ∧
      stateAfter (.cut 0) (counted broken 650) = .held := by decide +kernel

theorem test_endOfSettle :
    stateAfter (.settleTargetReached 0) settled = .running ∧ stateAfter (.settleTargetReached 0) (counted settling 5650) = .held ∧
      stateAfter (.settleTargetReached 0) (at0 settled fun st => { st with hold := true }) = .held ∧
      stateAfter (.settleTargetReached 0) (at0 settled fun st => { st with hold := true, deferredReset := true }) = .running ∧
      stateAfter (.settleTargetReached 0) (at0 settled fun st => { st with deferredReset := true, deferredDisable := true }) = .off ∧
      (after (.settleTargetReached 0) settled).notices.splice[0] = some ⟨1, ⟨some 0, some 1, some 0, none⟩⟩ := by decide +kernel

/-- A state with stand 0's critical flag set. -/
def critical (s : State) : State := at0 s fun st => { st with critical := true }

theorem test_witness_WebBreaksActByState :
    Settling 0 .webBreak true (pressed .webBreak fed) ∧ Settling 0 .webBreak true (pressed .webBreak (critical (waiting .urgent))) ∧
      Settling 0 .webBreak true (pressed .webBreak runUp) ∧ Settling 0 .webBreak true (pressed .webBreak settling) ∧
      Settling 0 .webBreak true (pressed .webBreak heldEmpty) :=
  ⟨settling_pressed _ rfl, settling_pressed _ rfl, settling_pressed _ rfl, settling_pressed _ rfl, settling_pressed _ rfl⟩

theorem test_webBreak :
    ([critical fed, critical (waiting .urgent), fed, critical runUp, runUp, cutting, settling, critical held, held, heldEmpty,
        idle false].map fun s =>
      let u := after (.webBreak 0) (pressed .webBreak s)
      ((u.stand 0).state, (u.stand 0).running, (u.stand 0).webBroken, u.notices.line[0].map (·.causes))) =
    [(.idle, none, false, some 8), (.idle, none, false, some 8), (.running, some 0, true, some 4), (.idle, none, false, some 8),
      (.held, some 0, true, some 4), (.cut, some 0, true, none), (.held, some 1, true, some 4), (.held, none, false, some 8),
      (.held, some 0, true, some 4), (.held, none, false, some 4), (.idle, none, false, some 4)] := by decide +kernel

end Sys2Proof.Tests
end

section
/-! PROOFS. The commands of the Reel Table that answer from the records alone: ENTER REEL (R12), FIND REEL (R13) and MOUNT REEL
(R17). Each is settled in two layers: what its owning block answers in any state, and the taking of a command whose effects
prompt no decision, which is the same for all three. -/

/-! ### What the searches of the Reel Table find -/

namespace Sys2Proof.Machine.State

/-- No record carries a tag exactly when the tag index does not know it (R2). -/
theorem handleOfTag_eq_none_iff (s : State) (tag : Nat) :
    s.handleOfTag tag = none ↔ ∀ h r, s.reel h = some r → r.tag ≠ tag := by
  simp [handleOfTag, Option.any_eq_false]

/-- Where tags are distinct, the tag index answers the handle of any record that carries the tag (R2, R13). -/
theorem handleOfTag_of_reel {s : State} (distinct : Safety.TagsDistinct s) {h : Handle} {r : Reel} (held : s.reel h = some r) :
    s.handleOfTag r.tag = some h := by
  cases found : s.handleOfTag r.tag with
  | none => exact absurd rfl ((handleOfTag_eq_none_iff s r.tag).1 found h r held)
  | some k =>
    have carries := List.find?_some found
    obtain ⟨q, slot, same⟩ : ∃ q, s.reel k = some q ∧ q.tag = r.tag := by simpa [Option.any_eq_true] using carries
    rw [distinct k h q r slot held same]

/-- An arm is empty exactly when no record has it as its place (R6). -/
theorem armHolds_eq_none_iff (s : State) (n : StandNo) (arm : Arm) :
    s.armHolds n arm = none ↔ ∀ k q, s.reel k = some q → q.place ≠ some ⟨n, arm⟩ := by
  simp [armHolds, Option.bind_eq_some_iff]

/-- The table is full exactly when every slot is occupied (R1). -/
theorem lowestFree_eq_none_iff (s : State) : s.lowestFree = none ↔ ∀ h, s.reel h ≠ none := by
  simp [lowestFree]

/-- The lowest free slot is free, and every slot below it is occupied (R1). -/
theorem lowestFree_eq_some_iff (s : State) (h : Handle) :
    s.lowestFree = some h ↔ s.reel h = none ∧ ∀ k < h, s.reel k ≠ none := by
  rw [lowestFree, ← Fin.find?_eq_find?_finRange, Fin.find?_eq_some_iff]
  simp [Option.isSome_iff_ne_none]

end Sys2Proof.Machine.State

namespace Sys2Proof.Machine

/-! ### Parameters -/

theorem within_iff (low high value : Nat) : within low high value = true ↔ low ≤ value ∧ value ≤ high := by
  simp [within]

/-- An optional parameter is accepted when it is absent, or present with a value in range (R178). -/
theorem optionalValue_eq (presence value : Nat) (inRange : Nat → Bool) :
    optionalValue presence value inRange =
      if presence = 0 ∨ presence = 1 ∧ inRange value = true then some (if presence = 1 then some value else none)
      else none := by
  match presence with
  | 0 => rfl
  | 1 => simp [optionalValue]
  | k + 2 => simp [optionalValue]

theorem armOfCode_armNumber (arm : Arm) : armOfCode (Statements.armNumber arm) = some arm := by cases arm <;> rfl

theorem armOfCode_eq_none {code : Nat} (h : 3 ≤ code) : armOfCode code = none := by
  obtain ⟨k, rfl⟩ := Nat.exists_eq_add_of_le' h
  rfl

/-! ### What the Reel Table answers to ENTER REEL (R12) -/

/-- The parameters of ENTER REEL lie in the ranges of Figure 6, and the core in the reel (R3, R178). -/
def EntryInRange (ps : Buffer) : Prop :=
  (1 ≤ valueAt ps 0 4 ∧ valueAt ps 0 4 ≤ 4294967295) ∧ (1 ≤ byteAt ps 4 ∧ byteAt ps 4 ≤ 63) ∧
    (1 ≤ byteAt ps 5 ∧ byteAt ps 5 ≤ 4) ∧ (70 ≤ byteAt ps 6 ∧ byteAt ps 6 ≤ 160) ∧
    (100 ≤ valueAt ps 7 2 ∧ valueAt ps 7 2 ≤ 1400) ∧ byteAt ps 6 ≤ valueAt ps 7 2 ∧
    (40 ≤ byteAt ps 9 ∧ byteAt ps 9 ≤ 150) ∧ (byteAt ps 10 = 0 ∨ byteAt ps 10 = 1 ∧ valueAt ps 11 2 ≤ 999)

/-- The record that R12 gives from the parameters of ENTER REEL. -/
def entryRecord (ps : Buffer) : Reel where
  tag := valueAt ps 0 4
  grade := byteAt ps 4
  width := byteAt ps 5
  core := byteAt ps 6
  diameter := valueAt ps 7 2
  caliper := byteAt ps 9
  length := lengthOf (valueAt ps 7 2) (byteAt ps 6) (byteAt ps 9)
  offset := if byteAt ps 10 = 1 then some (valueAt ps 11 2) else none
  state := .staged
  place := none
  mismatch := false
  lock := false
  deadReckoning := false
  stale := false
  spliceNumber := none

/-- Parameters in range give the record of R12. -/
theorem enteredReel_of_inRange {ps : Buffer} (h : EntryInRange ps) : enteredReel ps = some (entryRecord ps) := by
  obtain ⟨tag, grade, width, core, diameter, inside, caliper, offset⟩ := h
  have present : byteAt ps 10 = 0 ∨ byteAt ps 10 = 1 ∧ offsetInRange (valueAt ps 11 2) = true := by
    simpa [offsetInRange, within_iff] using offset
  rw [enteredReel, optionalValue_eq, if_pos present]
  simp [tagInRange, gradeInRange, widthInRange, coreInRange, diameterInRange, caliperInRange, within, tag, grade, width, core,
    diameter, inside, caliper, entryRecord]

/-- Parameters that give a record lie in range. -/
theorem entryInRange_of_enteredReel {ps : Buffer} {r : Reel} (h : enteredReel ps = some r) : EntryInRange ps := by
  rw [enteredReel, optionalValue_eq] at h
  split at h
  · exact absurd h (by simp)
  · rename_i accepted
    split at h
    · rename_i tests
      have offset : byteAt ps 10 = 0 ∨ byteAt ps 10 = 1 ∧ valueAt ps 11 2 ≤ 999 := by
        by_contra bad
        simp [offsetInRange, within_iff, bad] at accepted
      simp only [Bool.and_eq_true, decide_eq_true_eq, tagInRange, gradeInRange, widthInRange, coreInRange, diameterInRange,
        caliperInRange, within_iff] at tests
      obtain ⟨⟨⟨⟨⟨⟨tag, grade⟩, width⟩, core⟩, diameter⟩, caliper⟩, inside⟩ := tests
      exact ⟨tag, grade, width, core, diameter, inside, caliper, offset⟩
    · exact absurd h (by simp)

/-- Any other parameters give no record. -/
theorem enteredReel_of_not_inRange {ps : Buffer} (h : ¬EntryInRange ps) : enteredReel ps = none :=
  Option.eq_none_iff_forall_ne_some.2 fun _ given => h (entryInRange_of_enteredReel given)

theorem enterReel_badValue {ps : Buffer} (s : State) (bad : ¬EntryInRange ps) : enterReel ps s = refuse s .badValue := by
  rw [enterReel, enteredReel_of_not_inRange bad]

section

variable {ps : Buffer} {s : State}

theorem enterReel_duplicateTag (valid : EntryInRange ps) (known : ∃ h r, s.reel h = some r ∧ r.tag = valueAt ps 0 4) :
    enterReel ps s = refuse s .duplicateTag := by
  have indexed : (s.handleOfTag (entryRecord ps).tag).isSome = true := by
    obtain ⟨h, r, held, same⟩ := known
    exact Option.isSome_iff_ne_none.2 fun free => (s.handleOfTag_eq_none_iff _).1 free h r held same
  simp only [enterReel, enteredReel_of_inRange valid, indexed, if_true]

theorem enterReel_tableFull (valid : EntryInRange ps) (unknown : ∀ h r, s.reel h = some r → r.tag ≠ valueAt ps 0 4)
    (full : ∀ h, s.reel h ≠ none) : enterReel ps s = refuse s .tableFull := by
  have new : s.handleOfTag (entryRecord ps).tag = none := (s.handleOfTag_eq_none_iff _).2 unknown
  simp [enterReel, enteredReel_of_inRange valid, new, s.lowestFree_eq_none_iff.2 full]

theorem enterReel_done (valid : EntryInRange ps) (unknown : ∀ h r, s.reel h = some r → r.tag ≠ valueAt ps 0 4) {h : Handle}
    (free : s.reel h = none) (lowest : ∀ k < h, s.reel k ≠ none) :
    enterReel ps s = done (s.setReel h (some (entryRecord ps))) [BitVec.ofNat 8 h.val] := by
  have new : s.handleOfTag (entryRecord ps).tag = none := (s.handleOfTag_eq_none_iff _).2 unknown
  simp [enterReel, enteredReel_of_inRange valid, new, (s.lowestFree_eq_some_iff h).2 ⟨free, lowest⟩, byteOf]

/-! ### What the Reel Table answers to FIND REEL (R13) -/

theorem findReel_badValue (s : State) (bad : ¬tagInRange (valueAt ps 0 4) = true) : findReel ps s = refuse s .badValue := by
  simp [findReel, bad]

theorem findReel_notFound (valid : tagInRange (valueAt ps 0 4) = true)
    (unknown : ∀ h r, s.reel h = some r → r.tag ≠ valueAt ps 0 4) : findReel ps s = refuse s .notFound := by
  simp [findReel, valid, (s.handleOfTag_eq_none_iff _).2 unknown]

/-- The handle is the one that carries the tag, for no other record does (R2). -/
theorem findReel_done (valid : tagInRange (valueAt ps 0 4) = true) (distinct : Safety.TagsDistinct s) {h : Handle} {r : Reel}
    (held : s.reel h = some r) (same : r.tag = valueAt ps 0 4) : findReel ps s = done s [BitVec.ofNat 8 h.val] := by
  have found : s.handleOfTag (valueAt ps 0 4) = some h := same ▸ State.handleOfTag_of_reel distinct held
  simp [findReel, valid, found, byteOf]

/-! ### What the Reel Table answers to MOUNT REEL (R17) -/

theorem mountReel_badHandle (bad : ∀ h : Handle, byteAt ps 0 = h.val → s.reel h = none) :
    mountReel ps s = refuse s .badHandle :=
  withHandle_bad bad

variable {h : Handle} {r : Reel} (named : byteAt ps 0 = h.val) (held : s.reel h = some r)
include named held

theorem mountReel_badStand (bad : 12 ≤ byteAt ps 1) : mountReel ps s = refuse s .badStand := by
  rw [mountReel, withHandle_ok h r named held, withStand_bad bad]

theorem mountReel_badValue (inLine : byteAt ps 1 < 12) (bad : 3 ≤ byteAt ps 2) : mountReel ps s = refuse s .badValue := by
  rw [mountReel, withHandle_ok h r named held, withStand_ok ⟨byteAt ps 1, inLine⟩ rfl, armOfCode_eq_none bad]

variable {n : StandNo} {arm : Arm} (stand : byteAt ps 1 = n.val) (code : byteAt ps 2 = Statements.armNumber arm)
include stand code

theorem mountReel_wrongState (other : r.state ≠ .staged) : mountReel ps s = refuse s .wrongState := by
  rw [mountReel, withHandle_ok h r named held, withStand_ok n stand, code, armOfCode_armNumber]
  exact if_pos other

theorem mountReel_armOccupied (staged : r.state = .staged) (holder : ∃ k q, s.reel k = some q ∧ q.place = some ⟨n, arm⟩) :
    mountReel ps s = refuse s .armOccupied := by
  have occupied : (s.armHolds n arm).isSome = true := by
    obtain ⟨k, q, there, place⟩ := holder
    exact Option.isSome_iff_ne_none.2 fun empty => (s.armHolds_eq_none_iff n arm).1 empty k q there place
  rw [mountReel, withHandle_ok h r named held, withStand_ok n stand, code, armOfCode_armNumber]
  simp [staged, occupied]

theorem mountReel_done (staged : r.state = .staged) (empty : ¬∃ k q, s.reel k = some q ∧ q.place = some ⟨n, arm⟩) :
    mountReel ps s =
      done (s.setReel h (some { r with state := .mounted, place := some ⟨n, arm⟩ })) [BitVec.ofNat 8 h.val, 1] := by
  have nothing : s.armHolds n arm = none :=
    (s.armHolds_eq_none_iff n arm).2 fun k q there place => empty ⟨k, q, there, place⟩
  rw [mountReel, withHandle_ok h r named held, withStand_ok n stand, code, armOfCode_armNumber]
  simp [staged, nothing, byteOf, reelStateCode]

end

end Sys2Proof.Machine

namespace Sys2Proof.Statements

open Sys2Proof.Machine Sys2Proof.Safety

/-! ### The taking of a command that prompts no decision -/

/-- A command whose owning block leaves `u`, the waiting command apart, where no decision is owed: its taking leaves `u` with
the command taken and answered (R175). -/
theorem commandRow_take {c : Command} {ps : Buffer} {position : Nat} {s : State} (offered : Offered c ps position s) {u : State}
    (owes : NoDecisionOwed u) {act : Buffer → State → Taken} {r : Result} {reply : List Byte}
    (acts : act ps (taken s position) = ⟨taken u position, ⟨r, reply⟩⟩) :
    commandRow c act (.take position) s = replied u position r reply := by
  have settled : (taken u position).settleDecisions = taken u position := State.settleDecisions_of_none _ owes
  calc commandRow c act (.take position) s
    _ = answered (act ps (taken s position)).state (act ps (taken s position)).answer.result
          (act ps (taken s position)).answer.reply := takeHanded_ok offered.ready offered.handed offered.first
    _ = answered (taken u position) r reply := by rw [acts]
    _ = replied u position r reply := by rw [answered, settled]; rfl

/-- The same of the row's outcome, for a block that changes nothing. -/
theorem take_unchanged {c : Command} {ps : Buffer} {position : Nat} {s : State} (offered : Offered c ps position s)
    (owes : NoDecisionOwed s) {act : Buffer → State → Taken} {r : Result} {reply : List Byte}
    (acts : act ps (taken s position) = ⟨taken s position, ⟨r, reply⟩⟩) :
    (.next (commandRow c act (.take position) s) : Host.Outcome State Fault Refusal) = .next (replied s position r reply) :=
  congrArg _ (commandRow_take offered owes acts)

/-- The same of the row's outcome, for a block that changes the slot of one handle. -/
theorem take_setReel {c : Command} {ps : Buffer} {position : Nat} {s : State} (offered : Offered c ps position s)
    (owes : NoDecisionOwed s) {act : Buffer → State → Taken} {h : Handle} {w : Option Reel} {r : Result} {reply : List Byte}
    (acts : act ps (taken s position) = ⟨(taken s position).setReel h w, ⟨r, reply⟩⟩) :
    (.next (commandRow c act (.take position) s) : Host.Outcome State Fault Refusal) =
      .next (replied (s.setReel h w) position r reply) :=
  congrArg _ (commandRow_take (u := s.setReel h w) offered owes acts)

/-! ### The obligations -/

/-- Settles O29: the tests of ENTER REEL in their order, and the record in the lowest free slot. -/
theorem enterReelCreatesTheRecord : Obligations.EnterReelCreatesTheRecord := by
  intro ps position s offered owes tag _ _ _ _ _ _ _ _ known _
  have fresh (unknown : ¬known) : ∀ h r, s.reel h = some r → r.tag ≠ tag :=
    fun h r held same => unknown ⟨h, r, held, same⟩
  refine ⟨fun bad => ?badValue, fun valid duplicate => ?duplicateTag, fun valid unknown full => ?tableFull,
    fun valid unknown h free lowest => ?done⟩
  case badValue => exact take_unchanged offered owes (enterReel_badValue _ bad)
  case duplicateTag => exact take_unchanged offered owes (enterReel_duplicateTag valid duplicate)
  case tableFull => exact take_unchanged offered owes (enterReel_tableFull valid (fresh unknown) full)
  case done => exact take_setReel offered owes (enterReel_done (s := taken s position) valid (fresh unknown) free lowest)

/-- Settles O30: the range of the tag, then the tag index, which answers one handle since tags are distinct. -/
theorem findReelAnswersTheHandleOfTheTag : Obligations.FindReelAnswersTheHandleOfTheTag := by
  intro ps position s offered owes distinct tag _
  have range : tagInRange tag = true ↔ 1 ≤ tag ∧ tag ≤ 4294967295 := within_iff ..
  refine ⟨fun bad => ?badValue, fun low high unknown => ?notFound, fun h r held same low high => ?done⟩
  case badValue => exact take_unchanged offered owes (findReel_badValue _ (by rw [range]; omega))
  case notFound => exact take_unchanged offered owes (findReel_notFound (range.2 ⟨low, high⟩) unknown)
  case done =>
    exact take_unchanged offered owes (findReel_done (s := taken s position) (range.2 ⟨low, high⟩) distinct held same)

/-- Settles O33: the five checks of MOUNT REEL in their order, and the place it gives. -/
theorem mountReelPlacesAStagedRecord : Obligations.MountReelPlacesAStagedRecord := by
  intro ps position s offered owes _
  refine ⟨fun bad => ?badHandle, fun h r named held => ⟨fun bad => ?badStand, fun inLine bad => ?badValue,
    fun n arm stand code =>
      ⟨fun other => ?wrongState, fun staged occupied => ?armOccupied, fun staged empty => ?done⟩⟩⟩
  case badHandle => exact take_unchanged offered owes (mountReel_badHandle bad)
  case badStand => exact take_unchanged offered owes (mountReel_badStand named held bad)
  case badValue => exact take_unchanged offered owes (mountReel_badValue named held inLine bad)
  case wrongState => exact take_unchanged offered owes (mountReel_wrongState named held stand code other)
  case armOccupied => exact take_unchanged offered owes (mountReel_armOccupied named held stand code staged occupied)
  case done => exact take_setReel offered owes (mountReel_done (s := taken s position) named held stand code staged empty)

end Sys2Proof.Statements
end

section
/-! PROOFS. REORDER (R33): what the stand answers in any state, by the head's lock and the length of its queue, and the row that
takes it. A swap of a queue's entries prompts no decision, so the row leaves what the stand leaves. -/

namespace Sys2Proof.Machine

/-- The head of a stand's queue is locked exactly when it is a handle whose record carries SPLICE-LOCK. -/
theorem State.headLocked_iff (s : State) (n : StandNo) :
    s.headLocked n = true ↔ ∃ h r, (s.stand n).queue.head? = some h ∧ s.reel h = some r ∧ r.lock = true := by
  simp only [headLocked, Option.any_eq_true, Option.bind_eq_some_iff]
  constructor
  · rintro ⟨r, ⟨h, head, held⟩, lock⟩
    exact ⟨h, r, head, held, lock⟩
  · rintro ⟨h, r, head, held, lock⟩
    exact ⟨r, ⟨h, head, held⟩, lock⟩

section

variable {ps : Buffer} {s : State}

theorem reorder_badStand (bad : 12 ≤ byteAt ps 0) : reorder ps s = refuse s .badStand :=
  withStand_bad bad

variable {n : StandNo} (named : byteAt ps 0 = n.val)
include named

theorem reorder_inSplice (locked : s.headLocked n = true) : reorder ps s = refuse s .inSplice := by
  rw [reorder, withStand_ok n named, if_pos locked]

theorem reorder_wrongState (unlocked : ¬s.headLocked n = true) (short : (s.stand n).queue.length < 2) :
    reorder ps s = refuse s .wrongState := by
  rw [reorder, withStand_ok n named, if_neg unlocked]
  match queue : (s.stand n).queue with
  | [] => rfl
  | [_] => rfl
  | first :: second :: rest => simp [queue] at short

theorem reorder_done (unlocked : ¬s.headLocked n = true) {first second : Handle} (queue : (s.stand n).queue = [first, second]) :
    reorder ps s =
      done (s.modStand n fun st => { st with queue := [second, first] })
        [BitVec.ofNat 8 second.val, BitVec.ofNat 8 first.val] := by
  rw [reorder, withStand_ok n named, if_neg unlocked, queue]
  rfl

end

end Sys2Proof.Machine

namespace Sys2Proof.Statements

open Sys2Proof.Machine Sys2Proof.Safety

/-- Settles O38: the stand's number, the lock of the head and the length of the queue, in that order, and then the swap. -/
theorem reorderSwapsTheEntries : Obligations.ReorderSwapsTheEntries := by
  intro ps position s offered owes _
  have locked_iff (n : StandNo) := (taken s position).headLocked_iff n
  refine ⟨fun bad => ?badStand, fun n named => ⟨fun locked => ?inSplice, fun unlocked short => ?wrongState,
    fun first second unlocked queue => ?done⟩⟩
  case badStand => exact take_unchanged offered owes (reorder_badStand bad)
  case inSplice => exact take_unchanged offered owes (reorder_inSplice named ((locked_iff n).2 locked))
  case wrongState => exact take_unchanged offered owes (reorder_wrongState named (mt (locked_iff n).1 unlocked) short)
  case done =>
    exact congrArg _ (commandRow_take (u := s.modStand n fun st => { st with queue := [second, first] }) offered owes
      (reorder_done named (mt (locked_iff n).1 unlocked) queue))

end Sys2Proof.Statements
end

section
/-! PROOFS. Notices (R162, R166, R168): which notice a search from a rotation pointer finds, what its acceptance leaves in the
Notice Unit, and the rows of ACCEPT NOTICE and END NOTICE, which prompt no decision. -/

namespace Sys2Proof.Machine.NoticeUnit

variable (u : NoticeUnit) (cls : NoticeClass) (src : Source)

/-! ### The search (R166) -/

/-- The search goes through the sources by their distance from the one after the pointer, from 15 to 0 where it wraps. -/
theorem nextNotice_eq_findSome? :
    u.nextNotice cls = Fin.findSome? fun i : Fin 16 =>
      (u.pendingOf cls (u.pointer cls + 1 + i)).map fun w => (u.pointer cls + 1 + i, w) := by
  rw [nextNotice, searchOrder, List.findSome?_map, Fin.findSome?_eq_findSome?_finRange]
  rfl

theorem nextNotice_eq_none (clear : ∀ src, u.pendingOf cls src = none) : u.nextNotice cls = none := by
  simp [nextNotice, clear]

variable {u cls src} in
/-- The search finds the pending notice whose source no other pending one precedes after the pointer. -/
theorem nextNotice_eq_some {w : Notice} (pending : u.pendingOf cls src = some w)
    (first : ∀ other : Source, (other - u.pointer cls - 1).val < (src - u.pointer cls - 1).val → u.pendingOf cls other = none) :
    u.nextNotice cls = some (src, w) := by
  have visited (x : Source) : u.pointer cls + 1 + (x - u.pointer cls - 1) = x := by abel
  have distance (i : Fin 16) : u.pointer cls + 1 + i - u.pointer cls - 1 = i := by abel
  rw [nextNotice_eq_findSome?, Fin.findSome?_eq_some_iff]
  refine ⟨src - u.pointer cls - 1, by rw [visited, pending]; rfl, fun i earlier => ?_⟩
  rw [first (u.pointer cls + 1 + i) (by rwa [distance]), Option.map_none]

/-! ### The acceptance (R166) -/

/-- A removal at a position empties the slot there, within the vector or beyond it, and keeps every other slot. -/
theorem join_getElem?_setIfInBounds {n : Nat} (v : Vector (Option Notice) n) (i j : Nat) :
    ((v.setIfInBounds i none)[j]?).join = if j = i then none else (v[j]?).join := by
  by_cases same : i = j
  · subst same
    rw [Vector.getElem?_setIfInBounds_self, if_pos rfl]
    split <;> rfl
  · rw [Vector.getElem?_setIfInBounds_ne same, if_neg (Ne.symm same)]

theorem pendingOf_takeFrom_same (x : Source) :
    (u.takeFrom cls src).pendingOf cls x = if x = src then none else u.pendingOf cls x := by
  cases cls with
  | reel => simp [takeFrom, pendingOf, join_getElem?_setIfInBounds, Fin.ext_iff]
  | splice => simp [takeFrom, pendingOf, join_getElem?_setIfInBounds, Fin.ext_iff]
  | line => simp [takeFrom, pendingOf, Vector.getElem_set, Fin.ext_iff, eq_comm]

theorem pendingOf_takeFrom_other {c : NoticeClass} (other : c ≠ cls) (x : Source) :
    (u.takeFrom cls src).pendingOf c x = u.pendingOf c x := by
  cases cls <;> cases c <;> trivial

theorem pointer_takeFrom (c : NoticeClass) : (u.takeFrom cls src).pointer c = if c = cls then src else u.pointer c := by
  cases cls <;> cases c <;> rfl

theorem enabled_takeFrom (c : NoticeClass) : (u.takeFrom cls src).enabled c = u.enabled c := by
  cases cls <;> rfl

/-- The Notice Unit after the acceptance of a pending notice: it has left its pair, it is open, and SRQ is judged (R166). -/
def accepted (w : Notice) : NoticeUnit :=
  { u.takeFrom cls src with opened := some ⟨src, cls, w⟩ }.judge

variable (w : Notice)

@[simp] theorem accepted_opened : (u.accepted cls src w).opened = some ⟨src, cls, w⟩ := rfl

/-- While a notice is open, SRQ is negated (R164). -/
@[simp] theorem accepted_srq : (u.accepted cls src w).srq = false := rfl

/-- The accepted notice leaves its pair, and every other pair keeps its pending notice. -/
theorem pendingOf_accepted (c : NoticeClass) (x : Source) :
    (u.accepted cls src w).pendingOf c x = if c = cls ∧ x = src then none else u.pendingOf c x := by
  change (u.takeFrom cls src).pendingOf c x = _
  by_cases same : c = cls
  · subst same
    simp [pendingOf_takeFrom_same]
  · simp [pendingOf_takeFrom_other u cls src same, same]

theorem pointer_accepted (c : NoticeClass) : (u.accepted cls src w).pointer c = if c = cls then src else u.pointer c :=
  pointer_takeFrom u cls src c

theorem enabled_accepted (c : NoticeClass) : (u.accepted cls src w).enabled c = u.enabled c :=
  enabled_takeFrom u cls src c

end Sys2Proof.Machine.NoticeUnit

namespace Sys2Proof.Machine

/-! ### Filing (R162) -/

/-- The first filing for a pair makes its set of the one cause. -/
theorem gather_none (mask : Byte) (d : Detail) : gather none mask d = ⟨mask, d⟩ := by simp [gather]

/-- A further filing joins the set, and nothing of the old detail stays. -/
theorem gather_some (old : Notice) (mask : Byte) (d : Detail) : gather (some old) mask d = ⟨old.causes ||| mask, d⟩ := rfl

/-! ### Class codes (R178) -/

theorem classOfCode_classCode (cls : NoticeClass) : classOfCode (classCode cls).toNat = some cls := by cases cls <;> rfl

theorem classOfCode_eq_none {code : Nat} (bad : 3 ≤ code) : classOfCode code = none := by
  obtain ⟨k, rfl⟩ := Nat.exists_eq_add_of_le' bad
  rfl

theorem exists_classCode {code : Nat} (valid : code < 3) : ∃ cls, code = (classCode cls).toNat := by
  match code, valid with
  | 0, _ => exact ⟨.reel, rfl⟩
  | 1, _ => exact ⟨.splice, rfl⟩
  | 2, _ => exact ⟨.line, rfl⟩

/-! ### What the Notice Unit answers to ACCEPT NOTICE (R166) -/

section

variable {ps : Buffer} {s : State}

theorem acceptNotice_badValue (bad : 3 ≤ byteAt ps 0) : acceptNotice ps s = refuse s .badValue := by
  rw [acceptNotice, classOfCode_eq_none bad]

variable {cls : NoticeClass} (named : byteAt ps 0 = (classCode cls).toNat)
include named

theorem acceptNotice_noticeOpen {o : OpenNotice} (opened : s.notices.opened = some o) :
    acceptNotice ps s = ⟨s, ⟨.noticeOpen, noticeImage o⟩⟩ := by
  rw [acceptNotice, named, classOfCode_classCode, opened]

theorem acceptNotice_noNotice (closed : s.notices.opened = none) (clear : ∀ src, s.notices.pendingOf cls src = none) :
    acceptNotice ps s = refuse s .noNotice := by
  simp only [acceptNotice, named, classOfCode_classCode, closed, s.notices.nextNotice_eq_none cls clear]

theorem acceptNotice_done (closed : s.notices.opened = none) {src : Source} {w : Notice}
    (found : s.notices.nextNotice cls = some (src, w)) :
    acceptNotice ps s = done (s.modNotices fun u => u.accepted cls src w) (noticeImage ⟨src, cls, w⟩) := by
  simp only [acceptNotice, named, classOfCode_classCode, closed, found]
  rfl

end

/-! ### What the Notice Unit answers to END NOTICE (R168) -/

theorem endNotice_noneOpen (ps : Buffer) {s : State} (closed : s.notices.opened = none) :
    endNotice ps s = refuse s .noneOpen := by
  rw [endNotice, closed]

theorem endNotice_done (ps : Buffer) {s : State} {o : OpenNotice} (opened : s.notices.opened = some o) :
    endNotice ps s = done s.discardOpenNotice [byteOf o.source.val, classCode o.cls] := by
  rw [endNotice, opened]

end Sys2Proof.Machine

namespace Sys2Proof.Statements

open Sys2Proof.Machine Sys2Proof.Safety

section

variable {ps : Buffer} {position : Nat} {s : State}

/-- The taking of ACCEPT NOTICE where no notice is open and the rotation finds a pending one of the class (R166). -/
theorem acceptNotice_take_done (offered : Offered .acceptNotice ps position s) (owes : NoDecisionOwed s) {cls : NoticeClass}
    (named : byteAt ps 0 = (classCode cls).toNat) (closed : s.notices.opened = none) {src : Source} {w : Notice}
    (found : s.notices.nextNotice cls = some (src, w)) :
    exec (.acceptNotice (.take position)) s =
      .next (replied (s.modNotices fun u => u.accepted cls src w) position .done (noticeImage ⟨src, cls, w⟩)) :=
  congrArg _ (commandRow_take (u := s.modNotices fun u => u.accepted cls src w) offered owes
    (acceptNotice_done (s := taken s position) named closed found))

/-- The taking of END NOTICE where a notice is open (R168). -/
theorem endNotice_take_done (offered : Offered .endNotice ps position s) (owes : NoDecisionOwed s) {o : OpenNotice}
    (opened : s.notices.opened = some o) :
    exec (.endNotice (.take position)) s =
      .next (replied s.discardOpenNotice position .done [byteOf o.source.val, classCode o.cls]) :=
  congrArg _ (commandRow_take (u := s.discardOpenNotice) offered owes (endNotice_done ps (s := taken s position) opened))

end

/-- Settles O47: the filings by the definition of gathering and judging, the acceptance by what the search from the pointer
finds, the end by whether a notice is open. -/
theorem noticesAreGatheredAcceptedAndEnded : Obligations.NoticesAreGatheredAcceptedAndEnded := by
  refine ⟨fun old mask d => ⟨gather_none mask d, gather_some old mask d⟩, ⟨rfl, rfl, rfl⟩,
    fun s n d => ⟨fun c => rfl, fun c => rfl⟩, fun s src c d => rfl,
    fun ps position s offered owes => ⟨fun bad => ?badValue, fun valid o opened => ?noticeOpen, fun cls code closed =>
      ⟨fun clear => ?noNotice, fun src w pending first => ?accepted⟩⟩,
    fun ps position s offered owes => ⟨fun closed => ?noneOpen, fun o opened => ?ended⟩⟩
  case badValue => exact take_unchanged offered owes (acceptNotice_badValue bad)
  case noticeOpen =>
    obtain ⟨cls, named⟩ := exists_classCode valid
    exact take_unchanged offered owes (acceptNotice_noticeOpen (s := taken s position) named opened)
  case noNotice =>
    have named : byteAt ps 0 = (classCode cls).toNat := code.trans (by cases cls <;> rfl)
    exact take_unchanged offered owes (acceptNotice_noNotice (s := taken s position) named closed clear)
  case accepted =>
    have named : byteAt ps 0 = (classCode cls).toNat := code.trans (by cases cls <;> rfl)
    have found := NoticeUnit.nextNotice_eq_some pending first
    have enabled := s.notices.enabled_accepted cls src w
    exact ⟨s.notices.accepted cls src w, acceptNotice_take_done offered owes named closed found,
      NoticeUnit.accepted_opened .., NoticeUnit.accepted_srq .., NoticeUnit.pendingOf_accepted _ _ _ _,
      NoticeUnit.pointer_accepted _ _ _ _,
      enabled .reel, enabled .splice, enabled .line⟩
  case noneOpen => exact take_unchanged offered owes (endNotice_noneOpen ps (s := taken s position) closed)
  case ended => exact endNotice_take_done offered owes opened

end Sys2Proof.Statements
end

section
/-! PROOFS. The invariants of Safety.lean that `Kept` carries over every row (Laws/Keeps.lean): each is settled by saying, once for
every small change that a row may make, why the change keeps it. -/

namespace Sys2Proof.Machine

open Sys2Proof.Safety

/-! ### SRQ (R164) -/

/-- Every judging of SRQ leaves it at the level of its condition, whatever was filed, removed, accepted or discarded before. -/
theorem srqFollows_judge (s : State) (f : NoticeUnit → NoticeUnit) : SrqFollows (s.modNotices fun u => (f u).judge) := rfl

theorem srqFollows_pasteTransit {s : State} (h : SrqFollows s) (n : StandNo) (paste : Count) (forced : Bool) :
    SrqFollows (s.pasteTransit n paste forced) := by
  have filed : SrqFollows (s.modNotices fun _ => s.noticesAfterPaste n) := by
    unfold State.noticesAfterPaste
    dsimp only
    split
    · split
      · rfl
      · exact h
    · rfl
  rw [State.pasteTransit_eq]
  exact filed

theorem kept_srqFollows (i : Instr) (s : State) : Kept i s SrqFollows where
  port _ _ h := h
  reset _ _ _ _ := (rfl : NoticeUnit.reset.srq = NoticeUnit.reset.srqCondition)
  ready _ _ _ _ h := h
  flows h f := f.srqFollows h
  settle u h := (Flows.refl (strict := false) u).settleDecisions.srqFollows h
  inputs _ _ _ h := h
  web _ _ _ _ h := h
  paste _ _ n paste forced h := srqFollows_pasteTransit h n paste forced
  startReject _ _ _ _ h := h
  endReject _ _ _ _ h := h
  reachGuard _ _ _ _ h := h
  enter _ _ _ _ _ _ _ h := h
  change _ _ _ _ _ _ _ _ _ h := h
  remove _ _ _ h := h
  accept u cls src o _ := srqFollows_judge u fun n => { n.takeFrom cls src with opened := some o }
  discard u _ := srqFollows_judge u fun n => { n with opened := none }
  enables u value _ := srqFollows_judge u fun n =>
    { n with reelEnable := value.getLsbD 0, spliceEnable := value.getLsbD 1, lineEnable := value.getLsbD 2 }
  setting _ _ _ _ _ _ h := h

/-! ### The transit queues (R143, R120, R134) -/

/-- REJECT, the path-clear state and the length of every transit queue, as R143, R120 and R134 give them. -/
def TransitsFollowed (s : State) : Prop := RejectFollows s ∧ PathClearFollows s ∧ TransitQueuesBounded s

/-- What the rules ask of one path: of its transit queue, its REJECT output and its arbiter's path-clear state. -/
def PathFollowed (t : Transit) (pathClear : Bool) : Prop :=
  t.reject = t.queue.any (·.rejecting) ∧ pathClear = queueClear t.queue ∧ t.queue.length ≤ Config.transitCapacity

theorem transitsFollowed_iff (s : State) :
    TransitsFollowed s ↔ ∀ p, PathFollowed (s.transit p) (s.arbiter p).pathClear :=
  ⟨fun ⟨reject, clear, bound⟩ p => ⟨reject p, clear p, bound p⟩,
    fun h => ⟨fun p => (h p).1, fun p => (h p).2.1, fun p => (h p).2.2⟩⟩

/-- A change of one path's queue and arbiter keeps every path as the rules give it where it keeps that one. -/
theorem TransitsFollowed.change {s t : State} (h : TransitsFollowed s) (p : PathNo)
    (here : PathFollowed (t.transit p) (t.arbiter p).pathClear)
    (elsewhere : ∀ q, p ≠ q → t.transit q = s.transit q ∧ (t.arbiter q).pathClear = (s.arbiter q).pathClear) :
    TransitsFollowed t := by
  rw [transitsFollowed_iff] at h ⊢
  intro q
  by_cases same : p = q
  · exact same ▸ here
  · obtain ⟨transit, clear⟩ := elsewhere q same
    rw [transit, clear]
    exact h q

theorem TransitsFollowed.length_queueAfterPaste {s : State} (h : TransitsFollowed s) (n : StandNo) (paste : Count)
    (forced : Bool) : (s.queueAfterPaste n paste forced).length ≤ Config.transitCapacity := by
  unfold State.queueAfterPaste
  dsimp only
  split
  · simpa using ‹_›
  · rw [changeYoungest_length]
    exact h.2.2 _

theorem TransitsFollowed.pasteTransit {s : State} (h : TransitsFollowed s) (n : StandNo) (paste : Count) (forced : Bool) :
    TransitsFollowed (s.pasteTransit n paste forced) := by
  rw [State.pasteTransit_eq]
  refine h.change (s.pathOf n) ⟨?_, ?_, ?_⟩ fun q other => ⟨?_, ?_⟩
  · simp
  · simp
  · simpa using h.length_queueAfterPaste n paste forced
  · simp [State.modTransit_transit, other]
  · simp [State.modArbiter_arbiter, other]

/-- REJECTING has no part in the path-clear state or the length of the queue. -/
theorem TransitsFollowed.startReject {s : State} (h : TransitsFollowed s) (p : PathNo) (position : Nat) :
    TransitsFollowed (s.startReject p position) := by
  have ⟨_, clear, bound⟩ := h
  have unguarded (l : List TransitRecord) :
      queueClear (l.modify position fun r => { r with rejecting := true }) = queueClear l := by
    rw [queueClear, queueClear, List.length_modify, all_modify]
    exact fun _ => rfl
  unfold State.startReject State.setReject
  rw [State.modTransit_modTransit]
  refine h.change p ⟨?_, ?_, ?_⟩ fun q other => ⟨?_, ?_⟩
  · simp
  · simp [unguarded, clear p]
  · simpa using bound p
  · simp [State.modTransit_transit, other]
  · simp

theorem TransitsFollowed.endReject {s : State} (h : TransitsFollowed s) (p : PathNo) (position : Nat) :
    TransitsFollowed (s.endReject p position) := by
  unfold State.endReject State.reportDecision State.reportTransit State.setReject State.promptDecision
  rw [State.modTransit_modTransit, State.modArbiter_modArbiter]
  refine h.change p ⟨?_, ?_, ?_⟩ fun q other => ⟨?_, ?_⟩
  · simp
  · simp
  · have shorter := List.length_eraseIdx_le (s.transit p).queue position
    simpa using shorter.trans (h.2.2 p)
  · simp [State.modTransit_transit, other]
  · simp [State.modArbiter_arbiter, other]

/-- A guard has no part in REJECT or the length of the queue. -/
theorem TransitsFollowed.reachGuard {s : State} (h : TransitsFollowed s) (p : PathNo) (position : Nat) :
    TransitsFollowed (s.reachGuard p position) := by
  have ⟨reject, _, bound⟩ := h
  unfold State.reachGuard State.reportDecision State.reportTransit State.promptDecision
  rw [State.modArbiter_modArbiter]
  refine h.change p ⟨?_, ?_, ?_⟩ fun q other => ⟨?_, ?_⟩
  · simp [any_modify, reject p]
  · simp
  · simpa using bound p
  · simp [State.modTransit_transit, other]
  · simp [State.modArbiter_arbiter, other]

theorem Flows.transitsFollowed {strict : Bool} {s t : State} (f : Flows strict s t) (h : TransitsFollowed s) :
    TransitsFollowed t :=
  ⟨f.rejectFollows h.1, f.pathClearFollows h.2.1, f.transitQueuesBounded h.2.2⟩

theorem transitsFollowed_deviceReset (s : State) (phase : Phase) : TransitsFollowed (s.deviceReset phase) :=
  (transitsFollowed_iff _).2 fun p => by
    rw [State.deviceReset_transit, State.deviceReset_arbiter]
    exact ⟨rfl, rfl, by decide⟩

theorem kept_transitsFollowed (i : Instr) (s : State) : Kept i s TransitsFollowed where
  port _ _ h := h
  reset _ u phase _ := transitsFollowed_deviceReset u phase
  ready _ _ _ _ h := h
  flows h f := f.transitsFollowed h
  settle u h := (Flows.refl (strict := false) u).settleDecisions.transitsFollowed h
  inputs _ _ _ h := h
  web _ _ _ _ h := h
  paste _ _ n paste forced h := h.pasteTransit n paste forced
  startReject _ _ p position h := h.startReject p position
  endReject _ _ p position h := h.endReject p position
  reachGuard _ _ p position h := h.reachGuard p position
  enter _ _ _ _ _ _ _ h := h
  change _ _ _ _ _ _ _ _ _ h := h
  remove _ _ _ h := h
  accept _ _ _ _ h := h
  discard _ h := h
  enables _ _ h := h
  setting _ _ _ _ _ _ h := h

/-! ### The order queues (R26) -/

theorem kept_orderQueuesBounded (i : Instr) (s : State) : Kept i s OrderQueuesBounded where
  port _ _ h := h
  reset _ u phase _ n := by rw [State.deviceReset_stand]; decide
  ready _ _ _ _ h := h
  flows h f := f.orderQueuesBounded h
  settle u h := (Flows.refl (strict := false) u).settleDecisions.orderQueuesBounded h
  inputs _ _ _ h := h
  web _ _ _ _ h := h
  paste _ u n paste forced h := by rw [State.pasteTransit_eq]; exact h
  startReject _ _ _ _ h := h
  endReject _ _ _ _ h := h
  reachGuard _ _ _ _ h := h
  enter _ _ _ _ _ _ _ h := h
  change _ _ _ _ _ _ _ _ _ h := h
  remove _ _ _ h := h
  accept _ _ _ _ h := h
  discard _ h := h
  enables _ _ h := h
  setting _ _ _ _ _ _ h := h

/-! ### Path settings and working profiles (R149, R152, R157) -/

/-- Path settings in their ranges, and working profiles in theirs, at or above the reject lead of their path. -/
def ProfilesFollowed (s : State) : Prop := SettingsInRange s ∧ WorkingProfilesSound s

theorem Flows.profilesFollowed {strict : Bool} {s t : State} (f : Flows strict s t) (h : ProfilesFollowed s) :
    ProfilesFollowed t :=
  ⟨f.settingsInRange h.1, f.workingProfilesSound h.2⟩

theorem profileSound_default : ProfileSound Profile.default := by unfold ProfileSound; decide

theorem profilesFollowed_deviceReset (s : State) (phase : Phase) : ProfilesFollowed (s.deviceReset phase) := by
  refine ⟨fun p => ?_, fun n => ?_⟩
  · rw [State.deviceReset_setting]
    decide
  · rw [State.deviceReset_working, State.deviceReset_setting]
    exact ⟨profileSound_default, by decide⟩

/-- No stand of the path lies below the reject lead exactly when the search finds none (R157). -/
theorem standBelowLead_eq_none_iff (s : State) (p : PathNo) (lead : Nat) :
    s.standBelowLead p lead = none ↔ ∀ n, s.pathOf n = p → lead ≤ (s.working n).gateDistance := by
  simp [State.standBelowLead, State.standsOf]

theorem ProfilesFollowed.setSetting {s : State} (h : ProfilesFollowed s) {p : PathNo} {g : PathSettings}
    (inRange : settingsInRange g = true) (none : s.standBelowLead p g.rejectLead = none) :
    ProfilesFollowed (s.setSetting p g) := by
  have above := (standBelowLead_eq_none_iff s p g.rejectLead).1 none
  refine ⟨fun q => ?_, fun n => ⟨(h.2 n).1, ?_⟩⟩
  · rw [State.setSetting_setting]
    split
    · exact inRange
    · exact h.1 q
  · rw [State.setSetting_setting]
    split
    · exact above n (Eq.symm ‹_›)
    · exact (h.2 n).2

theorem kept_profilesFollowed (i : Instr) (s : State) : Kept i s ProfilesFollowed where
  port _ _ h := h
  reset _ u phase _ := profilesFollowed_deviceReset u phase
  ready _ _ _ _ h := h
  flows h f := f.profilesFollowed h
  settle u h := (Flows.refl (strict := false) u).settleDecisions.profilesFollowed h
  inputs _ _ _ h := h
  web _ _ _ _ h := h
  paste _ u n paste forced h := by rw [State.pasteTransit_eq]; exact h
  startReject _ _ _ _ h := h
  endReject _ _ _ _ h := h
  reachGuard _ _ _ _ h := h
  enter _ _ _ _ _ _ _ h := h
  change _ _ _ _ _ _ _ _ _ h := h
  remove _ _ _ h := h
  accept _ _ _ _ h := h
  discard _ h := h
  enables _ _ h := h
  setting _ _ _ _ inRange none h := h.setSetting inRange none

/-! ### Tags and places (R2, R6) -/

/-- No two live records share a tag, nor a place. -/
def RecordsDistinct (s : State) : Prop := TagsDistinct s ∧ PlacesDistinct s

theorem Flows.recordsDistinct {strict : Bool} {s t : State} (f : Flows strict s t) (h : RecordsDistinct s) :
    RecordsDistinct t :=
  ⟨f.tagsDistinct h.1, f.placesDistinct h.2⟩

/-- A record written to a slot keeps the records distinct where no record of another slot has its tag or its place. -/
theorem RecordsDistinct.setReel {s : State} (d : RecordsDistinct s) {h : Handle} {w : Option Reel}
    (tag : ∀ r, w = some r → ∀ k q, s.reel k = some q → q.tag = r.tag → k = h)
    (place : ∀ r, w = some r → ∀ k q place, s.reel k = some q → q.place = some place → r.place = some place → k = h) :
    RecordsDistinct (s.setReel h w) := by
  refine ⟨fun x y r q hx hy same => ?_, fun x y r q at' hx hy px py => ?_⟩
  · rw [State.setReel_reel] at hx hy
    split at hx <;> split at hy
    · exact Eq.trans (Eq.symm ‹h = x›) ‹h = y›
    · exact Eq.trans (Eq.symm ‹h = x›) (tag r hx y q hy same.symm).symm
    · exact Eq.trans (tag q hy x r hx same) ‹h = y›
    · exact d.1 x y r q hx hy same
  · rw [State.setReel_reel] at hx hy
    split at hx <;> split at hy
    · exact Eq.trans (Eq.symm ‹h = x›) ‹h = y›
    · exact Eq.trans (Eq.symm ‹h = x›) (place r hx y q at' hy py px).symm
    · exact Eq.trans (place q hy x r at' hx px py) ‹h = y›
    · exact d.2 x y r q at' hx hy px py

theorem RecordsDistinct.remove {s : State} (d : RecordsDistinct s) (h : Handle) : RecordsDistinct (s.setReel h none) :=
  d.setReel (fun _ e => nomatch e) (fun _ e => nomatch e)

theorem RecordsDistinct.enter {s : State} (d : RecordsDistinct s) {h : Handle} {r : Reel} (fresh : s.handleOfTag r.tag = none)
    (unplaced : r.place = none) : RecordsDistinct (s.setReel h (some r)) := by
  refine d.setReel (fun w e k q held same => ?_) (fun w e k q place held there here => ?_)
  · cases e
    exact absurd same ((State.handleOfTag_eq_none_iff s r.tag).1 fresh k q held)
  · cases e
    exact absurd (unplaced.symm.trans here) (by simp)

theorem RecordsDistinct.change {s : State} (d : RecordsDistinct s) {h : Handle} {r r' : Reel} (held : s.reel h = some r)
    (tag : r'.tag = r.tag)
    (place : r'.place = r.place ∨ r'.place = none ∨ ∃ n arm, r'.place = some ⟨n, arm⟩ ∧ s.armHolds n arm = none) :
    RecordsDistinct (s.setReel h (some r')) := by
  refine d.setReel (fun w e k q other same => ?_) (fun w e k q at' other there here => ?_)
  · cases e
    exact d.1 k h q r other held (same.trans tag)
  · cases e
    obtain same | none | ⟨n, arm, new, empty⟩ := place
    · exact d.2 k h q r at' other held there (same.symm.trans here)
    · exact absurd (none.symm.trans here) (by simp)
    · have : at' = ⟨n, arm⟩ := Option.some.inj (here.symm.trans new)
      exact absurd (this ▸ there) ((State.armHolds_eq_none_iff s n arm).1 empty k q other)

theorem kept_recordsDistinct (i : Instr) (s : State) : Kept i s RecordsDistinct where
  port _ _ h := h
  reset _ u phase _ :=
    ⟨fun h _ _ _ held => absurd held (by simp), fun h _ _ _ _ held => absurd held (by simp)⟩
  ready _ _ _ _ h := h
  flows h f := f.recordsDistinct h
  settle u h := (Flows.refl (strict := false) u).settleDecisions.recordsDistinct h
  inputs _ _ _ h := h
  web _ _ _ _ h := h
  paste _ u n paste forced h := by rw [State.pasteTransit_eq]; exact h
  startReject _ _ _ _ h := h
  endReject _ _ _ _ h := h
  reachGuard _ _ _ _ h := h
  enter _ _ _ _ _ fresh unplaced h := h.enter fresh unplaced
  change _ _ _ _ _ held tag _ place h := h.change held tag place
  remove _ x _ h := h.remove x
  accept _ _ _ _ h := h
  discard _ h := h
  enables _ _ h := h
  setting _ _ _ _ _ _ h := h

end Sys2Proof.Machine

namespace Sys2Proof.Statements

open Sys2Proof.Machine Sys2Proof.Safety

/-- Settles O4: every change of the Notice Unit ends with the judging of SRQ. -/
theorem srqFollowsItsCondition : Obligations.SrqFollowsItsCondition :=
  fun _ _ h e => Kept.step kept_srqFollows (fun _ _ h => h) h e

/-- Settles O5: each change of a transit queue sets REJECT and reports to the arbiter in the same step. -/
theorem transitQueuesAreFollowed : Obligations.TransitQueuesAreFollowed :=
  fun _ _ h e => Kept.step kept_transitsFollowed (fun _ _ h => h) h e

/-- Settles O6: a queue gains an entry only by an offer, which is made where it holds fewer than 2. -/
theorem orderQueuesHoldAtMostTwo : Obligations.OrderQueuesHoldAtMostTwo :=
  fun _ _ h e => Kept.step kept_orderQueuesBounded (fun _ _ h => h) h e

/-- Settles O7: a working profile changes only by the application of a valid one, and settings only by a PATH SET that passed. -/
theorem workingProfilesStaySound : Obligations.WorkingProfilesStaySound :=
  fun _ _ h e => Kept.step kept_profilesFollowed (fun _ _ h => h) h e

/-- Settles O8: a record enters under a new tag without a place, and takes a place only on an empty arm. -/
theorem tagsAndPlacesStayDistinct : Obligations.TagsAndPlacesStayDistinct :=
  fun _ _ h e => Kept.step kept_recordsDistinct (fun _ _ h => h) h e

end Sys2Proof.Statements
end

section
/-! PROOFS. The courses that a row can take, said once: a command's row, an event of the field, a register write, a completion, a
read, a device reset, a change of phase or inputs. From them: that no row leaves a decision owed (R121), that one command is in
progress while BUSY is set (section 10.1), and what a row leaves alone. -/

namespace Sys2Proof.Machine

open Sys2Proof.Safety Sys2Proof.Statements

/-! ### What leaves the Press Port as it was -/

namespace State

@[simp] theorem pasteTransit_port (s : State) (n : StandNo) (paste : Count) (forced : Bool) :
    (s.pasteTransit n paste forced).port = s.port := by
  rw [pasteTransit_eq]
  rfl

theorem makePaste_port (s : State) (n : StandNo) (c : SpliceContext) (paste : Count) :
    (s.makePaste n c paste).port = s.port := by
  unfold makePaste
  dsimp only
  split <;> simp [freePermit, setPermit, promptDecision, startPulse]

theorem takePaste_port (s : State) (n : StandNo) (c : SpliceContext) (paste : Count) :
    (s.takePaste n c paste).port = s.port :=
  ((Flows.refl (strict := true) _).cutIfReached n).port_eq.trans (makePaste_port s n c paste)

theorem pasteIfReached_port (s : State) (n : StandNo) : (s.pasteIfReached n).port = s.port := by
  unfold pasteIfReached
  split
  · rfl
  · split
    · rfl
    · split
      · exact takePaste_port ..
      · rfl

theorem takeFreshMark_port (s : State) (n : StandNo) (arm : Arm) : (s.takeFreshMark n arm).port = s.port := by
  unfold takeFreshMark
  split
  · rfl
  · split
    · split
      · unfold markInRunUp
        dsimp only
        split
        · exact pasteIfReached_port ..
        · rfl
      · exact pasteIfReached_port ..
      all_goals rfl
    · rfl

theorem onContext_port {s : State} {n : StandNo} {event : SpliceContext → State} (keeps : ∀ c, (event c).port = s.port) :
    (s.onContext n event).port = s.port := by
  unfold onContext
  split
  · rfl
  · exact keeps _

theorem takeTarget_port (s : State) (t : Target) (count : Count) : (s.takeTarget t count).port = s.port := by
  have flow : Flows true s s := .refl s
  cases t with
  | runMarkDeadline n => exact (flow.loseRunMark n count).port_eq
  | reckoningStep n => exact (flow.takeReckoningStep n count).port_eq
  | freshReelMarkDeadline n => exact (flow.loseFreshMark n).port_eq
  | paste n => exact onContext_port fun c => takePaste_port s n c count
  | cut n => exact onContext_port fun c => (flow.makeCut n c).port_eq
  | settle n => exact onContext_port fun c => (flow.endSettle n c).port_eq
  | rejectStart p position => rfl
  | rejectEnd p position => rfl
  | guardCount p position => rfl

theorem atTarget_port (s : State) (t : Target) : (s.atTarget t).port = s.port := by
  unfold atTarget
  split
  · rfl
  · split
    · exact takeTarget_port ..
    · rfl

theorem settleDecisions_port (s : State) : s.settleDecisions.port = s.port :=
  (Flows.refl (strict := false) s).settleDecisions.port_eq

theorem takeReached_port (s : State) (p : PathNo) : (s.takeReached p).port = s.port := by
  unfold takeReached
  induction targetsOf p generalizing s with
  | nil => rfl
  | cons t rest ih =>
    refine (ih _).trans ?_
    unfold takeIfDue
    split
    · rw [settleDecisions_port, atTarget_port]
    · rfl

theorem pulseEdge_port (s : State) (p : PathNo) (since : Nat) : (s.pulseEdge p since).port = s.port := by
  unfold pulseEdge takePulse
  dsimp only
  split
  · rfl
  · split <;> simp [fileLine, takeReached_port]

theorem expireMotionTimer_port (s : State) (p : PathNo) (order : List StandNo) :
    (s.expireMotionTimer p order).port = s.port := by
  unfold expireMotionTimer stopPath
  split
  · rw [(Flows.takePathStops _ (.refl _)).port_eq]
    simp [fileLine, takeReached_port]
  · rfl

theorem markEdge_port {s : State} {n : StandNo} {arm : Arm} {since : Nat} {mark : State → State}
    (keeps : ∀ u, (mark u).port = u.port) : (s.markEdge n arm since mark).port = s.port := by
  unfold markEdge
  split
  · rfl
  · exact keeps _

theorem atSettling_port {s : State} {n : StandNo} {k : KeyInput} {level : Bool} {event : State → State}
    (keeps : ∀ u, (event u).port = u.port) : (s.atSettling n k level event).port = s.port := by
  unfold atSettling
  dsimp only
  split
  · exact keeps _
  · rfl

end State

/-- The owning block's part of a command leaves the port to the command's row (R175). -/
def KeepsPort (act : Buffer → State → Taken) : Prop := ∀ ps u, (act ps u).state.port = u.port

namespace KeepsPort

theorem ofActs {act : Buffer → State → Taken} (acts : Acts act) : KeepsPort act :=
  fun ps u => (acts true ps u u (.refl u)).port_eq

theorem enterReel : KeepsPort enterReel := fun ps u => by
  unfold Machine.enterReel
  split
  · rfl
  · split
    · rfl
    · split <;> rfl

theorem amendReel : KeepsPort amendReel := fun ps u =>
  withHandle_elim (P := fun x => x.state.port = u.port) rfl fun x r _ => by
    split
    · rfl
    · split
      · rfl
      · split <;> rfl

theorem mountReel : KeepsPort mountReel := fun ps u =>
  withHandle_elim (P := fun x => x.state.port = u.port) rfl fun x r _ =>
    withStand_elim (P := fun x => x.state.port = u.port) rfl fun n => by
      split
      · rfl
      · split
        · rfl
        · split <;> rfl

theorem leaveItsQueue_port (s : State) (h : Handle) (place : Option Place) : (s.leaveItsQueue h place).port = s.port := by
  unfold State.leaveItsQueue
  split
  · rfl
  · exact ((Flows.refl (strict := true) s).leaveByCommand _ h).port_eq

theorem unmountReel : KeepsPort unmountReel := fun ps u =>
  withHandle_elim (P := fun x => x.state.port = u.port) rfl fun x r _ => by
    split
    all_goals first | rfl | skip
    split
    · rfl
    · exact leaveItsQueue_port ..

theorem retireReel : KeepsPort retireReel := fun ps u =>
  withHandle_elim (P := fun x => x.state.port = u.port) rfl fun x r _ => by
    split
    all_goals first | rfl | skip
    split
    · rfl
    · exact leaveItsQueue_port ..

theorem pathSet : KeepsPort pathSet := fun ps u =>
  withPath_elim (P := fun x => x.state.port = u.port) rfl fun p => by
    dsimp only
    split
    · split <;> rfl
    · rfl

theorem acceptNotice : KeepsPort acceptNotice := fun ps u => by
  unfold Machine.acceptNotice
  split
  · rfl
  · split
    · rfl
    · split <;> rfl

theorem endNotice : KeepsPort endNotice := fun ps u => by
  unfold Machine.endNotice
  split <;> rfl

end KeepsPort

/-! ### The courses of the rows -/

theorem exec_rowOfTarget (t : Target) (s : State) : exec (rowOfTarget t) s = .next (targetRow t s) := by cases t <;> rfl

theorem ite_port {c : Prop} [Decidable c] {s t : State} (h : t.port = s.port) : (if c then t else s).port = s.port := by
  split
  · exact h
  · rfl

/-- A row runs an event on a ready controller (R181), which leaves the port alone. -/
def RunsEvent (i : Instr) : Prop :=
  ∃ event : State → State, (∀ s, (event s).port = s.port) ∧ ∀ s, exec i s = .next (atEvent event s)

theorem runsEvent_rowOfTarget (t : Target) : RunsEvent (rowOfTarget t) :=
  ⟨fun s => s.atTarget t, fun s => s.atTarget_port t, exec_rowOfTarget t⟩

/-- Every row of the field runs an event. -/
theorem runsEvent_of_fieldRow {i : Instr} (h : fieldRow i = true) : RunsEvent i := by
  have flow : ∀ s, Flows true s s := .refl
  cases i with
  | webPulse p since => exact ⟨fun s => s.pulseEdge p since, fun s => s.pulseEdge_port p since, fun _ => rfl⟩
  | motionTimerExpiry p order =>
    exact ⟨fun s => s.expireMotionTimer p order, fun s => s.expireMotionTimer_port p order, fun _ => rfl⟩
  | runMark n arm since =>
    exact ⟨fun s => s.markEdge n arm since fun s => s.takeRunMark n arm,
      fun s => State.markEdge_port fun u => ((flow u).takeRunMark n arm).port_eq, fun _ => rfl⟩
  | freshReelMark n arm since =>
    exact ⟨fun s => s.markEdge n arm since fun s => s.takeFreshMark n arm,
      fun s => State.markEdge_port fun u => u.takeFreshMark_port n arm, fun _ => rfl⟩
  | runMarkDeadline n => exact runsEvent_rowOfTarget (.runMarkDeadline n)
  | reckoningStep n => exact runsEvent_rowOfTarget (.reckoningStep n)
  | freshReelMarkDeadline n => exact runsEvent_rowOfTarget (.freshReelMarkDeadline n)
  | paste n => exact runsEvent_rowOfTarget (.paste n)
  | cut n => exact runsEvent_rowOfTarget (.cut n)
  | settleTargetReached n => exact runsEvent_rowOfTarget (.settle n)
  | rejectStart p position => exact runsEvent_rowOfTarget (.rejectStart p position)
  | rejectEnd p position => exact runsEvent_rowOfTarget (.rejectEnd p position)
  | guardCountReached p position => exact runsEvent_rowOfTarget (.guardCount p position)
  | runUpTimerExpiry n =>
    exact ⟨fun s => if beforePaste (s.stand n).state ∧ (s.stand n).runUpTimer.isSome = true then s.stallSplice n else s,
      fun s => ite_port ((flow s).stallSplice n).port_eq, fun _ => rfl⟩
  | backoffTimerExpiry n =>
    exact ⟨fun s => if (s.stand n).state = .backoff ∧ (s.stand n).backoffTimer.isSome = true then s.retry n else s,
      fun s => ite_port ((flow s).retry n).port_eq, fun _ => rfl⟩
  | brakeTimerExpiry n =>
    exact ⟨fun s => if (s.stand n).brakeTimer.isSome then
        (s.modStand n fun st => { st with brakeTimer := none }).modOutputs n fun o => { o with brake := false } else s,
      fun s => ite_port rfl, fun _ => rfl⟩
  | pulseEnd n out => exact ⟨_, fun s => State.modOutputs_port s n _, fun _ => rfl⟩
  | loadDone n arm =>
    exact ⟨fun s => s.atSettling n (.loadDone arm) true fun s => s.pressLoadDone n arm,
      fun s => State.atSettling_port fun u => ((flow u).pressLoadDone n arm).port_eq, fun _ => rfl⟩
  | holdKey n =>
    exact ⟨fun s => s.atSettling n .hold true fun s => s.pressHold n,
      fun s => State.atSettling_port fun u => ((flow u).pressHold n).port_eq, fun _ => rfl⟩
  | spliceKey n =>
    exact ⟨fun s => s.atSettling n .splice true fun s => s.pressSplice n,
      fun s => State.atSettling_port fun u => ((flow u).pressSplice n).port_eq, fun _ => rfl⟩
  | webBreak n =>
    exact ⟨fun s => s.atSettling n .webBreak true fun s => s.takeBreak n,
      fun s => State.atSettling_port fun u => ((flow u).takeBreak n).port_eq, fun _ => rfl⟩
  | filterSettlesInactive n k =>
    exact ⟨fun s => s.atSettling n k false id, fun s => State.atSettling_port fun u => rfl, fun _ => rfl⟩
  | _ => exact absurd h Bool.false_ne_true

/-- The courses that a row can take from a state, with the state each leaves. -/
inductive Course (s : State) : State → Prop
  | command (c : Command) (act : Buffer → State → Taken) (keeps : KeepsPort act) (e : CmdEvent) : Course s (commandRow c act e s)
  | event (event : State → State) (keeps : ∀ u, (event u).port = u.port) : Course s (atEvent event s)
  | register (offset : Fin 8) (value : Byte) : Course s (s.writeRegister offset value)
  | complete (a : Answer) (answer : s.port.answer = some a) : Course s (s.complete a)
  | read : Course s s.readBuffer
  | reset (phase : Phase) : Course s (s.deviceReset phase)
  | inputs (phase : Phase) (inputs : Vector Inputs 12) : Course s { s with phase := phase, inputs := inputs }

namespace Course

/-- A row that changes nothing leaves phase and inputs too. -/
theorem idle (s : State) : Course s s := .inputs s.phase s.inputs

theorem ofExec {i : Instr} {s t : State} (e : exec i s = .next t) : Course s t := by
  have next {u : State} (c : Course s u) (e : (.next u : Host.Outcome State Fault Refusal) = .next t) : Course s t := by
    cases e
    exact c
  by_cases field : fieldRow i = true
  · obtain ⟨event, keeps, run⟩ := runsEvent_of_fieldRow field
    exact next (.event event keeps) ((run s).symm.trans e)
  cases i with
  | enterReel e' => exact next (.command _ _ .enterReel e') e
  | findReel e' => exact next (.command _ _ (.ofActs .findReel) e') e
  | fetchReel e' => exact next (.command _ _ (.ofActs .fetchReel) e') e
  | amendReel e' => exact next (.command _ _ .amendReel e') e
  | mountReel e' => exact next (.command _ _ .mountReel e') e
  | prepareReel e' => exact next (.command _ _ (.ofActs .prepareReel) e') e
  | unmountReel e' => exact next (.command _ _ .unmountReel e') e
  | retireReel e' => exact next (.command _ _ .retireReel e') e
  | reorder e' => exact next (.command _ _ (.ofActs .reorder) e') e
  | standEnable e' => exact next (.command _ _ (.ofActs .standEnable) e') e
  | standDisable e' => exact next (.command _ _ (.ofActs .standDisable) e') e
  | standReset e' => exact next (.command _ _ (.ofActs .standReset) e') e
  | threadReel e' => exact next (.command _ _ (.ofActs .threadReel) e') e
  | hold e' => exact next (.command _ _ (.ofActs .hold) e') e
  | release e' => exact next (.command _ _ (.ofActs .release) e') e
  | spliceSoon e' => exact next (.command _ _ (.ofActs .spliceSoon) e') e
  | spliceNow e' => exact next (.command _ _ (.ofActs .spliceNow) e') e
  | output e' => exact next (.command _ _ (.ofActs .output) e') e
  | fetchStand e' => exact next (.command _ _ (.ofActs .fetchStand) e') e
  | profileWrite e' => exact next (.command _ _ (.ofActs .profileWrite) e') e
  | profileRead e' => exact next (.command _ _ (.ofActs .profileRead) e') e
  | profileChange e' => exact next (.command _ _ (.ofActs .profileChange) e') e
  | pathSet e' => exact next (.command _ _ .pathSet e') e
  | fetchPath e' => exact next (.command _ _ (.ofActs .fetchPath) e') e
  | acceptNotice e' => exact next (.command _ _ .acceptNotice e') e
  | endNotice e' => exact next (.command _ _ .endNotice e') e
  | deviceReset e' => exact next (.command _ deviceResetNotTaken (fun _ _ => rfl) e') e
  | undefinedCommandCode code => exact next (.register 0 code) e
  | commandCompletion =>
    refine next ?_ e
    split
    · exact .complete _ ‹_›
    · exact .idle s
  | bufferRead => exact next .read e
  | bufferWrite value => exact next (.register 3 value) e
  | indexWrite value => exact next (.register 4 value) e
  | classEnableWrite value => exact next (.register 6 value) e
  | portReset value => exact next (.register 7 value) e
  | ignoredRegisterWrite offset value => exact next (.register offset value) e
  | resetLineAsserted => exact next (.reset _) e
  | resetLineReleased =>
    refine next ?_ e
    split
    · exact .inputs _ s.inputs
    · exact .idle s
  | initialisationComplete =>
    refine next ?_ e
    split
    · exact .inputs _ _
    · exact .idle s
  | keyInputChange n k level =>
    refine next ?_ e
    unfold State.changeInput
    dsimp only
    split
    · exact .idle s
    · exact .inputs s.phase _
  | _ => exact absurd rfl field

end Course

/-! ### No decision is owed after a row (R121) -/

theorem noDecisionOwed_settleDecisions (s : State) : NoDecisionOwed s.settleDecisions := fun p => s.settleDecisions_due p

theorem noDecisionOwed_modPort {s : State} (h : NoDecisionOwed s) (f : Port → Port) : NoDecisionOwed (s.modPort f) := h

theorem noDecisionOwed_deviceReset (s : State) (phase : Phase) : NoDecisionOwed (s.deviceReset phase) := fun p => by
  rw [State.deviceReset_arbiter]
  rfl

theorem noDecisionOwed_writeCode {s : State} (h : NoDecisionOwed s) (code : Byte) : NoDecisionOwed (s.writeCode code) :=
  State.writeCode_keeps (P := NoDecisionOwed) (fun _ _ h => h) (fun u phase _ => noDecisionOwed_deviceReset u phase) code h

theorem noDecisionOwed_takeHanded {s : State} (h : NoDecisionOwed s) (c : Command) (act : Buffer → State → Taken)
    (position : Nat) : NoDecisionOwed (takeHanded c act position s) := by
  unfold takeHanded
  split
  · exact h
  · split
    · dsimp only
      split
      · exact noDecisionOwed_settleDecisions _
      · exact noDecisionOwed_modPort (noDecisionOwed_settleDecisions _) _
    · exact h

theorem noDecisionOwed_commandRow {s : State} (h : NoDecisionOwed s) (c : Command) (act : Buffer → State → Taken)
    (e : CmdEvent) : NoDecisionOwed (commandRow c act e s) := by
  have written := noDecisionOwed_writeCode h c.code
  unfold commandRow
  split
  · exact written
  · exact noDecisionOwed_takeHanded h c act _
  · split
    · exact noDecisionOwed_takeHanded written c act _
    · exact written

theorem noDecisionOwed_writeRegister {s : State} (h : NoDecisionOwed s) (offset : Fin 8) (value : Byte) :
    NoDecisionOwed (s.writeRegister offset value) := by
  unfold State.writeRegister
  split
  · split
    · exact noDecisionOwed_writeCode h value
    · exact h
    · exact h
    · unfold State.writeBuffer
      split <;> exact h
    · unfold State.writeIndex
      split
      · exact h
      · split <;> exact h
    · exact h
    · exact h
    · unfold State.writeControl
      split <;> exact h
  · exact h

/-- A row that makes decisions leaves none owed, and no other row prompts one. -/
theorem noDecisionOwed_exec {i : Instr} {s t : State} (h : NoDecisionOwed s) (e : exec i s = .next t) : NoDecisionOwed t := by
  cases Course.ofExec e with
  | command c act keeps e' => exact noDecisionOwed_commandRow h c act e'
  | event event keeps =>
    unfold atEvent
    split
    · exact noDecisionOwed_settleDecisions _
    · exact h
  | register offset value => exact noDecisionOwed_writeRegister h offset value
  | complete a answer => exact h
  | read =>
    unfold State.readBuffer
    split <;> exact h
  | reset phase => exact noDecisionOwed_deviceReset s phase
  | inputs phase inputs => exact h

/-! ### The arbiters rest (R121) -/

/-- Every arbiter rests or owes a decision, and its path-clear state is what its transit queue makes it. -/
def ArbitersFollowed (s : State) : Prop := (∀ p, Rests (s.arbiter p)) ∧ PathClearFollows s

/-- A change of one path's queue and arbiter keeps every arbiter as the rules give it where it keeps that one. -/
theorem ArbitersFollowed.change {s t : State} (h : ArbitersFollowed s) (p : PathNo) (rests : Rests (t.arbiter p))
    (clear : (t.arbiter p).pathClear = queueClear (t.transit p).queue)
    (elsewhere : ∀ q, p ≠ q → t.transit q = s.transit q ∧ t.arbiter q = s.arbiter q) : ArbitersFollowed t := by
  refine ⟨fun q => ?_, fun q => ?_⟩ <;> by_cases same : p = q
  · exact same ▸ rests
  · exact (elsewhere q same).2 ▸ h.1 q
  · exact same ▸ clear
  · rw [(elsewhere q same).1, (elsewhere q same).2]
    exact h.2 q

/-- A path that is not clear is not cleared by a paste. -/
theorem queueClear_of_queueAfterPaste {s : State} {n : StandNo} {paste : Count} {forced : Bool}
    (h : queueClear (s.queueAfterPaste n paste forced) = true) : queueClear (s.transit (s.pathOf n)).queue = true := by
  unfold State.queueAfterPaste at h
  dsimp only at h
  split at h
  · exact queueClear_of_append h
  · rename_i full
    simp [queueClear, changeYoungest_length, full] at h

theorem ArbitersFollowed.pasteTransit {s : State} (h : ArbitersFollowed s) (n : StandNo) (paste : Count) (forced : Bool) :
    ArbitersFollowed (s.pasteTransit n paste forced) := by
  rw [State.pasteTransit_eq]
  refine h.change (s.pathOf n) ?_ (by simp) fun q other => ⟨?_, ?_⟩
  · obtain due | taken | blocked | none := h.1 (s.pathOf n)
    · exact .inl (by simpa using due)
    · exact .inr (.inl (by simpa using taken))
    · refine .inr (.inr (.inl (Bool.eq_false_iff.2 fun clear => ?_)))
      have before := queueClear_of_queueAfterPaste (by simpa using clear)
      exact absurd ((h.2 _).trans before) (by simp [blocked])
    · exact .inr (.inr (.inr (by simpa using none)))
  · simp [State.modTransit_transit, other]
  · simp [State.modArbiter_arbiter, other]

/-- REJECTING has no part in the path-clear state. -/
theorem queueClear_startReject (l : List TransitRecord) (position : Nat) :
    queueClear (l.modify position fun r => { r with rejecting := true }) = queueClear l := by
  rw [queueClear, queueClear, List.length_modify, all_modify]
  exact fun _ => rfl

theorem ArbitersFollowed.startReject {s : State} (h : ArbitersFollowed s) (p : PathNo) (position : Nat) :
    ArbitersFollowed (s.startReject p position) := by
  unfold State.startReject State.setReject
  rw [State.modTransit_modTransit]
  refine h.change p (h.1 p) ?_ fun q other => ⟨?_, ?_⟩
  · simp [queueClear_startReject, h.2 p]
  · simp [State.modTransit_transit, other]
  · simp

theorem ArbitersFollowed.endReject {s : State} (h : ArbitersFollowed s) (p : PathNo) (position : Nat) :
    ArbitersFollowed (s.endReject p position) := by
  unfold State.endReject State.reportDecision State.reportTransit State.setReject State.promptDecision
  rw [State.modTransit_modTransit, State.modArbiter_modArbiter]
  refine h.change p (.inl (by simp)) (by simp) fun q other => ⟨?_, ?_⟩
  · simp [State.modTransit_transit, other]
  · simp [State.modArbiter_arbiter, other]

theorem ArbitersFollowed.reachGuard {s : State} (h : ArbitersFollowed s) (p : PathNo) (position : Nat) :
    ArbitersFollowed (s.reachGuard p position) := by
  unfold State.reachGuard State.reportDecision State.reportTransit State.promptDecision
  rw [State.modArbiter_modArbiter]
  refine h.change p (.inl (by simp)) (by simp) fun q other => ⟨?_, ?_⟩
  · simp [State.modTransit_transit, other]
  · simp [State.modArbiter_arbiter, other]

theorem arbitersFollowed_deviceReset (s : State) (phase : Phase) : ArbitersFollowed (s.deviceReset phase) := by
  refine ⟨fun p => .inr (.inr (.inr fun n => ?_)), fun p => ?_⟩
  · rw [State.deviceReset_arbiter]
    simp [Arbiter.reset]
  · rw [State.deviceReset_arbiter, State.deviceReset_transit]
    rfl

theorem kept_arbitersFollowed (i : Instr) (s : State) : Kept i s ArbitersFollowed where
  port _ _ h := h
  reset _ u phase _ := arbitersFollowed_deviceReset u phase
  ready _ _ _ _ h := h
  flows h f := ⟨f.rests h.1, f.pathClearFollows h.2⟩
  settle u h := ⟨u.settleDecisions_rests h.1, (Flows.refl (strict := false) u).settleDecisions.pathClearFollows h.2⟩
  inputs _ _ _ h := h
  web _ _ _ _ h := h
  paste _ _ n paste forced h := h.pasteTransit n paste forced
  startReject _ _ p position h := h.startReject p position
  endReject _ _ p position h := h.endReject p position
  reachGuard _ _ p position h := h.reachGuard p position
  enter _ _ _ _ _ _ _ h := h
  change _ _ _ _ _ _ _ _ _ h := h
  remove _ _ _ h := h
  accept _ _ _ _ h := h
  discard _ h := h
  enables _ _ h := h
  setting _ _ _ _ _ _ h := h

/-- An arbiter that rests without owing a decision has none to make. -/
theorem noArbiterIdles_of_rests {s : State} (rests : ∀ p, Rests (s.arbiter p)) (owes : NoDecisionOwed s) :
    NoArbiterIdles s := by
  intro p free clear
  obtain due | taken | blocked | none := rests p
  · exact absurd (owes p) (by simp [due])
  · exact absurd free taken
  · exact absurd clear (by simp [blocked])
  · exact none

theorem rests_of_noArbiterIdles {s : State} (h : NoArbiterIdles s) (p : PathNo) : Rests (s.arbiter p) := by
  by_cases free : (s.arbiter p).permit = .free
  · cases clear : (s.arbiter p).pathClear with
    | false => exact .inr (.inr (.inl clear))
    | true => exact .inr (.inr (.inr (h p free clear)))
  · exact .inr (.inl free)

/-! ### One command in progress (section 10.1) -/

/-- The handed commands whose result is wanted, when one command leaves the list. -/
theorem length_filter_eraseIdx {α : Type} (p : α → Bool) {l : List α} {k : Nat} {x : α} (h : l[k]? = some x) :
    (l.filter p).length = ((l.eraseIdx k).filter p).length + if p x then 1 else 0 := by
  induction l generalizing k with
  | nil => simp at h
  | cons y rest ih =>
    cases k with
    | zero =>
      obtain rfl : y = x := by simpa using h
      cases py : p y <;> simp [py]
    | succ k =>
      have smaller := ih (k := k) (by simpa using h)
      cases py : p y <;> simp [py, smaller]
      omega

theorem oneCommand_of_port {s t : State} (h : OneCommandInProgress s) (same : t.port = s.port) : OneCommandInProgress t := by
  unfold OneCommandInProgress at *
  rw [same]
  exact h

theorem oneCommand_deviceReset (s : State) (phase : Phase) : OneCommandInProgress (s.deviceReset phase) := by
  unfold OneCommandInProgress
  rw [State.deviceReset_port]
  rfl

/-- A clear BUSY leaves nothing in progress: no handed command's result is wanted, and no answer waits. -/
theorem oneCommand_idle {s : State} (h : OneCommandInProgress s) (free : s.port.busy = false) :
    (s.port.handed.filter fun h => !h.discarded).length = 0 ∧ s.port.answer = none := by
  simp only [OneCommandInProgress, commandsInProgress, free] at h
  cases answer : s.port.answer with
  | none => exact ⟨by simpa [answer] using h, rfl⟩
  | some a => simp [answer] at h

theorem oneCommand_handOver {s : State} (h : OneCommandInProgress s) (free : s.port.busy = false) (c : Command) :
    OneCommandInProgress (s.handOver c) := by
  have none := (oneCommand_idle h free).1
  simp_all [OneCommandInProgress, commandsInProgress, State.handOver]

theorem oneCommand_complete {s : State} (h : (s.port.handed.filter fun h => !h.discarded).length = 0) (a : Answer) :
    OneCommandInProgress (s.complete a) := by
  simp_all [OneCommandInProgress, commandsInProgress, State.complete]

theorem oneCommand_writeCode {s : State} (h : OneCommandInProgress s) (code : Byte) :
    OneCommandInProgress (s.writeCode code) := by
  unfold State.writeCode
  split
  · exact h
  · split
    · exact h
    · rename_i idle
      have free : s.port.busy = false := by simpa using idle
      split
      · exact h
      · split
        · exact oneCommand_complete (s := s.modPort fun q => { q with overrun := false }) (oneCommand_idle h free).1 ⟨.badCommand, []⟩
        · exact oneCommand_deviceReset ..
        · exact oneCommand_handOver h free _

/-- The taking moves a command from those handed to the answer, or takes a discarded one from them. -/
theorem oneCommand_takeHanded {s : State} (h : OneCommandInProgress s) {act : Buffer → State → Taken}
    (keeps : KeepsPort act) (c : Command) (position : Nat) : OneCommandInProgress (takeHanded c act position s) := by
  unfold Machine.takeHanded
  split
  · exact h
  · rename_i handed there
    have count := length_filter_eraseIdx (fun h => !h.discarded) there
    simp only [OneCommandInProgress, commandsInProgress] at h
    split
    · dsimp only
      have port := keeps handed.params (s.modPort fun q => { q with handed := q.handed.eraseIdx position })
      split
      · rename_i discarded
        simp_all [OneCommandInProgress, commandsInProgress, State.settleDecisions_port]
      · rename_i wanted
        simp only [OneCommandInProgress, commandsInProgress, State.modPort_port, State.settleDecisions_port, port]
        have answered : s.port.answer = none := by
          cases answer : s.port.answer with
          | none => rfl
          | some a =>
            simp [count, wanted, answer] at h
            split at h <;> omega
        simpa [count, wanted, answered] using h
    · exact h

theorem oneCommand_commandRow {s : State} (h : OneCommandInProgress s) {act : Buffer → State → Taken}
    (keeps : KeepsPort act) (c : Command) (e : CmdEvent) : OneCommandInProgress (commandRow c act e s) := by
  have written := oneCommand_writeCode h c.code
  unfold Machine.commandRow
  split
  · exact written
  · exact oneCommand_takeHanded h keeps ..
  · split
    · exact oneCommand_takeHanded written keeps ..
    · exact written

theorem oneCommand_writeRegister {s : State} (h : OneCommandInProgress s) (offset : Fin 8) (value : Byte) :
    OneCommandInProgress (s.writeRegister offset value) := by
  unfold State.writeRegister
  split
  · split
    · exact oneCommand_writeCode h value
    · exact h
    · exact h
    · unfold State.writeBuffer
      split <;> exact h
    · unfold State.writeIndex
      split
      · exact h
      · split <;> exact h
    · exact h
    · exact h
    · unfold State.writeControl
      split
      · simp [OneCommandInProgress, commandsInProgress, State.resetPort, State.discardOpenNotice, List.filter_map]
      · exact h
  · exact h

theorem oneCommand_exec {i : Instr} {s t : State} (h : OneCommandInProgress s) (e : exec i s = .next t) :
    OneCommandInProgress t := by
  cases Course.ofExec e with
  | command c act keeps e' => exact oneCommand_commandRow h keeps c e'
  | event event keeps =>
    refine oneCommand_of_port h ?_
    unfold atEvent
    split
    · rw [State.settleDecisions_port, keeps]
    · rfl
  | register offset value => exact oneCommand_writeRegister h offset value
  | complete a answer =>
    refine oneCommand_complete ?_ a
    simp only [OneCommandInProgress, commandsInProgress, answer, Option.isSome_some, if_true] at h
    split at h <;> omega
  | read =>
    unfold State.readBuffer
    split <;> exact h
  | reset phase => exact oneCommand_deviceReset s phase
  | inputs phase inputs => exact h

end Sys2Proof.Machine

namespace Sys2Proof.Statements

open Sys2Proof.Machine Sys2Proof.Safety

/-- A step idles on an empty queue, and otherwise runs the row at its front on the state with the rest. -/
theorem step_cases {s t : State} (e : step s = .next t) : t = s ∨ ∃ i rest, exec i (s.withPending rest) = .next t := by
  unfold step at e
  split at e
  · cases e
    exact .inl rfl
  · exact .inr ⟨_, _, e⟩

/-- Settles O9: each change that could leave a grant to make prompts a decision, and the decisions follow before the row ends. -/
theorem noArbiterRestsWithAGrantToMake : Obligations.NoArbiterRestsWithAGrantToMake := by
  rintro s t ⟨owes, clear, idles⟩ e
  have followed : ArbitersFollowed t :=
    Kept.step kept_arbitersFollowed (fun _ _ h => h) ⟨rests_of_noArbiterIdles idles, clear⟩ e
  have settled : NoDecisionOwed t := by
    obtain rfl | ⟨i, rest, run⟩ := step_cases e
    · exact owes
    · exact noDecisionOwed_exec (s := s.withPending rest) owes run
  exact ⟨settled, followed.2, noArbiterIdles_of_rests followed.1 settled⟩

/-- Settles O10: by the courses of the rows; only the port's own rows and the taking of a command touch what is in progress. -/
theorem oneCommandIsInProgressWhileBusy : Obligations.OneCommandIsInProgressWhileBusy := by
  intro s t h e
  obtain rfl | ⟨i, rest, run⟩ := step_cases e
  · exact h
  · exact oneCommand_exec (s := s.withPending rest) h run

end Sys2Proof.Statements
end

section
/-! PROOFS. What the rows leave alone: the counters and the settings (R39, R157), the diameter of a running reel (R45), the inputs
before READY (R181, R184), and the whole state where a row's event does not arise (log 6). -/

namespace Sys2Proof.Machine

open Sys2Proof.Safety Sys2Proof.Statements

/-! ### Code writes that do not reset -/

/-- A code write other than that of DEVICE RESET changes the port alone (R174). -/
theorem writeCode_port {s : State} {code : Byte} (h : Command.ofCode code ≠ some .deviceReset) :
    ∃ f, s.writeCode code = s.modPort f := by
  unfold State.writeCode
  split
  · exact ⟨id, rfl⟩
  · split
    · exact ⟨_, rfl⟩
    · split
      · exact ⟨id, rfl⟩
      · split
        · exact ⟨_, State.modPort_modPort s _ _⟩
        · exact absurd ‹_› h
        · exact ⟨_, rfl⟩

/-- The code write of DEVICE RESET resets a ready port that is not busy, and otherwise changes the port alone (R181, R176). -/
theorem writeCode_deviceReset (s : State) :
    s.writeCode Command.deviceReset.code = s.deviceReset .initialising ∨
      ∃ f, s.writeCode Command.deviceReset.code = s.modPort f := by
  unfold State.writeCode
  split
  · exact .inr ⟨id, rfl⟩
  · split
    · exact .inr ⟨_, rfl⟩
    · exact .inl rfl

/-- The write of an ignored row changes the port alone: OVERRUN, where it is a code write on a busy port (R172, R176). -/
theorem writeRegister_ignored {s : State} {offset : Fin 8} {value : Byte}
    (h : (!decide (s.phase = .ready) || ignoredWhenReady offset value) = true) :
    ∃ f, s.writeRegister offset value = s.modPort f := by
  unfold State.writeRegister
  split
  · rename_i ready
    simp only [ready, decide_true, Bool.not_true, Bool.false_or] at h
    unfold ignoredWhenReady at h
    split at h
    · have zero : value = 0 := by simpa using h
      exact writeCode_port (by rw [zero]; decide)
    · exact ⟨id, rfl⟩
    · exact ⟨id, rfl⟩
    · exact ⟨id, rfl⟩
    · exact ⟨id, by simp only [State.writeControl, if_neg (by simpa using h : ¬value.getLsbD 0 = true)]; rfl⟩
    · exact absurd h (by simp)
  · exact ⟨id, rfl⟩

/-- What the row of DEVICE RESET leaves: the state after device reset, or webs, settings and arbiters as they were. -/
theorem commandRow_deviceReset (e : CmdEvent) (s : State) :
    commandRow .deviceReset deviceResetNotTaken e s = s.deviceReset .initialising ∨
      (commandRow .deviceReset deviceResetNotTaken e s).webs = s.webs ∧
        (commandRow .deviceReset deviceResetNotTaken e s).settings = s.settings := by
  have written : s.writeCode Command.deviceReset.code = s.deviceReset .initialising ∨
      (s.writeCode Command.deviceReset.code).webs = s.webs ∧ (s.writeCode Command.deviceReset.code).settings = s.settings := by
    obtain reset | ⟨f, port⟩ := writeCode_deviceReset s
    · exact .inl reset
    · exact .inr (port ▸ ⟨rfl, rfl⟩)
  have taking (u : State) (position : Nat) : (takeHanded .deviceReset deviceResetNotTaken position u).webs = u.webs ∧
      (takeHanded .deviceReset deviceResetNotTaken position u).settings = u.settings :=
    takeHanded_keeps (P := fun v => v.webs = u.webs ∧ v.settings = u.settings) (fun _ _ h => h)
      (fun v h => by
        have settled := (Flows.refl (strict := false) v).settleDecisions
        exact ⟨settled.webs_eq.trans h.1, settled.settings_eq.trans h.2⟩) (fun _ _ _ h => h) position ⟨rfl, rfl⟩
  unfold commandRow
  split
  · exact written
  · exact .inr (taking s _)
  · split
    · obtain reset | kept := written
      · rw [reset]
        exact .inl (by simp [takeHanded, Port.reset])
      · exact .inr ⟨(taking _ _).1.trans kept.1, (taking _ _).2.trans kept.2⟩
    · exact written

/-! ### Counters and settings (R39, R157) -/

theorem kept_counter {i : Instr} (noReset : mayReset i = false) (noWeb : changesWeb i = false) (s₀ s : State) (p : PathNo) :
    Kept i s fun u => (u.web p).counter = (s₀.web p).counter where
  port _ _ h := h
  reset h := absurd h (by simp [noReset])
  ready _ _ _ _ h := h
  flows h f := by rw [f.web_eq]; exact h
  settle u h := by rw [(Flows.refl (strict := false) u).settleDecisions.web_eq]; exact h
  inputs _ _ _ h := h
  web h := absurd h (by simp [noWeb])
  paste _ u n paste forced h := by rw [State.pasteTransit_eq]; exact h
  startReject _ _ _ _ h := h
  endReject _ _ _ _ h := h
  reachGuard _ _ _ _ h := h
  enter _ _ _ _ _ _ _ h := h
  change _ _ _ _ _ _ _ _ _ h := h
  remove _ _ _ h := h
  accept _ _ _ _ h := h
  discard _ h := h
  enables _ _ h := h
  setting _ _ _ _ _ _ h := h

/-- The settings of a path stand as they did, or a PATH SET has brought them in their ranges. -/
def SettingsSet (i : Instr) (s₀ : State) (p : PathNo) (u : State) : Prop :=
  u.setting p = s₀.setting p ∨ (∃ e, i = .pathSet e) ∧ settingsInRange (u.setting p) = true

theorem SettingsSet.congr {i : Instr} {s₀ u t : State} {p : PathNo} (h : SettingsSet i s₀ p u)
    (same : t.setting p = u.setting p) : SettingsSet i s₀ p t := by
  unfold SettingsSet at *
  rw [same]
  exact h

theorem kept_settingsSet {i : Instr} (noReset : mayReset i = false) (s₀ s : State) (p : PathNo) :
    Kept i s (SettingsSet i s₀ p) where
  port _ _ h := h
  reset h := absurd h (by simp [noReset])
  ready _ _ _ _ h := h
  flows h f := h.congr (f.setting_eq p)
  settle u h := h.congr ((Flows.refl (strict := false) u).settleDecisions.setting_eq p)
  inputs _ _ _ h := h
  web _ _ _ _ h := h
  paste _ u n paste forced h := by rw [State.pasteTransit_eq]; exact h
  startReject _ _ _ _ h := h
  endReject _ _ _ _ h := h
  reachGuard _ _ _ _ h := h
  enter _ _ _ _ _ _ _ h := h
  change _ _ _ _ _ _ _ _ _ h := h
  remove _ _ _ h := h
  accept _ _ _ _ h := h
  discard _ h := h
  enables _ _ h := h
  setting isSet u q g inRange _ h := by
    unfold SettingsSet at *
    rw [State.setSetting_setting]
    split
    · exact .inr ⟨isSet, inRange⟩
    · exact h

/-- A web pulse adds 1 to the counter of its path, or is no pulse (R39, R185). -/
theorem counter_webPulse (q : PathNo) (since : Nat) (s : State) (p : PathNo) :
    let counter := ((atEvent (fun s => s.pulseEdge q since) s).web p).counter
    counter = (s.web p).counter ∨ counter = (s.web p).counter + 1 ∧ q = p := by
  have pulsed : ((s.pulseEdge q since).web p).counter = (s.web p).counter ∨
      ((s.pulseEdge q since).web p).counter = (s.web p).counter + 1 ∧ q = p := by
    have reached (x : PathNo) : (s.takeReached q).web x = s.web x := by
      simp only [State.web, (s.takeReached_keeps q).1]
    unfold State.pulseEdge State.takePulse State.fileLine
    dsimp only
    split
    · exact .inl rfl
    · by_cases same : q = p
      · subst same
        refine .inr ⟨?_, rfl⟩
        split <;> simp [reached]
      · refine .inl ?_
        split <;> simp [State.modWeb_web, same, reached]
  dsimp only
  unfold atEvent
  split
  · rw [(Flows.refl (strict := false) _).settleDecisions.web_eq]
    exact pulsed
  · exact .inl rfl

/-- The expiry of a motion timer stops the web and leaves its counter (R41). -/
theorem counter_motionTimerExpiry (q : PathNo) (order : List StandNo) (s : State) (p : PathNo) :
    ((atEvent (fun s => s.expireMotionTimer q order) s).web p).counter = (s.web p).counter := by
  have expired : ((s.expireMotionTimer q order).web p).counter = (s.web p).counter := by
    have reached (x : PathNo) : (s.takeReached q).web x = s.web x := by
      simp only [State.web, (s.takeReached_keeps q).1]
    unfold State.expireMotionTimer State.stopPath State.fileLine
    split
    · rw [(Flows.takePathStops _ (.refl _)).web_eq, State.modNotices_web, State.modWeb_web, reached, reached]
      split
      · exact congrArg (fun x => (s.web x).counter) ‹q = p›
      · rfl
    · rfl
  unfold atEvent
  split
  · rw [(Flows.refl (strict := false) _).settleDecisions.web_eq]
    exact expired
  · rfl

/-! ### The diameter of a running reel (R45) -/

/-- Whatever record a slot holds, its diameter is at most a bound. -/
def DiameterAtMost (h : Handle) (bound : Nat) (u : State) : Prop := ∀ r, u.reel h = some r → r.diameter ≤ bound

theorem Flows.diameterAtMost {strict : Bool} {s t : State} {h : Handle} {bound : Nat} (f : Flows strict s t)
    (k : DiameterAtMost h bound s) : DiameterAtMost h bound t := fun r' held => by
  obtain ⟨r, before, smaller⟩ := f.reel_diameter h r' held
  exact smaller.trans (k r before)

/-- A row taken while a slot holds a running reel writes no larger diameter to the slot: AMEND REEL does not name it (Figure 8),
and a new record enters another slot. -/
theorem kept_diameterAtMost (i : Instr) {s : State} {h : Handle} {r : Reel} (held : s.reel h = some r)
    (running : r.state = .running) : Kept i s (DiameterAtMost h r.diameter) where
  port _ _ k := k
  reset _ _ _ _ := fun r' e => absurd e (by simp)
  ready _ _ _ _ k := k
  flows k f := f.diameterAtMost k
  settle u k := (Flows.refl (strict := false) u).settleDecisions.diameterAtMost k
  inputs _ _ _ k := k
  web _ _ _ _ k := k
  paste _ u n paste forced k := by rw [State.pasteTransit_eq]; exact k
  startReject _ _ _ _ k := k
  endReject _ _ _ _ k := k
  reachGuard _ _ _ _ k := k
  enter u x w same free _ _ k := fun r' e => by
    rw [State.setReel_reel] at e
    split at e
    · have here : u.reel h = some r := by simpa only [State.reel, same] using held
      exact absurd (free.symm.trans (‹x = h› ▸ here)) (by simp)
    · exact k r' e
  change u x w w' same there _ fixed _ k := fun r' e => by
    rw [State.setReel_reel] at e
    split at e
    · have here : u.reel h = some r := by simpa only [State.reel, same] using held
      obtain rfl : w = r := Option.some.inj (there.symm.trans (‹x = h› ▸ here))
      cases e
      exact (fixed running).le
    · exact k r' e
  remove u x _ k := fun r' e => by
    rw [State.setReel_reel] at e
    split at e
    · exact absurd e (by simp)
    · exact k r' e
  accept _ _ _ _ k := k
  discard _ k := k
  enables _ _ k := k
  setting _ _ _ _ _ _ k := k

/-! ### The queue of waiting commands -/

theorem kept_pending (i : Instr) (s₀ s : State) : Kept i s fun u => u.pending = s₀.pending where
  port _ _ h := h
  reset _ _ _ h := h
  ready _ _ _ _ h := h
  flows h f := f.pending_eq.trans h
  settle u h := (Flows.refl (strict := false) u).settleDecisions.pending_eq.trans h
  inputs _ _ _ h := h
  web _ _ _ _ h := h
  paste _ u n paste forced h := by rw [State.pasteTransit_eq]; exact h
  startReject _ _ _ _ h := h
  endReject _ _ _ _ h := h
  reachGuard _ _ _ _ h := h
  enter _ _ _ _ _ _ _ h := h
  change _ _ _ _ _ _ _ _ _ h := h
  remove _ _ _ h := h
  accept _ _ _ _ h := h
  discard _ h := h
  enables _ _ h := h
  setting _ _ _ _ _ _ h := h

/-! ### Events that do not arise (log 6) -/

/-- An event that changes nothing is a row that changes nothing, where no decision is owed. -/
theorem atEvent_idle {event : State → State} {s : State} (owes : NoDecisionOwed s) (idle : event s = s) :
    atEvent event s = s := by
  unfold atEvent
  split
  · rw [idle, State.settleDecisions_of_none s owes]
  · rfl

theorem exec_idle {i : Instr} {event : State → State} {s : State} (owes : NoDecisionOwed s) (idle : event s = s)
    (run : exec i s = .next (atEvent event s)) : exec i s = .next s :=
  run.trans (congrArg _ (atEvent_idle owes idle))

theorem State.atSettling_of_not {s : State} {n : StandNo} {k : KeyInput} {level : Bool}
    (h : (filterOf (s.standInputs n) k).timer = false ∨ (filterOf (s.standInputs n) k).input = !level)
    (event : State → State) : s.atSettling n k level event = s := by
  refine if_neg fun ⟨timer, input⟩ => ?_
  obtain stopped | other := h
  · exact absurd timer (by simp [stopped])
  · exact absurd (input.symm.trans other) (by simp)

theorem State.targetDue_eq_false {s : State} {t : Target}
    (h : ∀ c, s.pendingTarget t = some c → reached (s.web (s.targetPath t)).counter c = false) : s.targetDue t = false :=
  Bool.eq_false_iff.2 fun due => by
    obtain ⟨c, pending, reached⟩ := (s.targetDue_iff t).1 due
    exact absurd reached (by simp [h c pending])

/-- A command that is not handed at the position, or may not be taken yet, is not taken (R175, R180). -/
theorem takeHanded_of_not {c : Command} {position : Nat} {s : State}
    (h : s.phase ≠ .ready ∨ (∀ x, s.port.handed[position]? = some x → x.command ≠ c ∨ mayTake s.port.handed position x = false))
    (act : Buffer → State → Taken) : takeHanded c act position s = s := by
  unfold takeHanded
  split
  · rfl
  · rename_i x there
    refine if_neg fun ⟨ready, isCommand, first⟩ => ?_
    obtain notReady | other := h
    · exact notReady ready
    · obtain different | waits := other x there
      · exact different isCommand
      · exact absurd first (by simp [waits])

/-! ### The filters (R184) -/

theorem exec_keyInputChange {n : StandNo} {k : KeyInput} {level : Bool} {s : State}
    (moves : (filterOf (s.standInputs n) k).input ≠ level) :
    exec (.keyInputChange n k level) s = .next (s.setFilter n k { filterOf (s.standInputs n) k with
      input := level
      timer := decide (s.phase = .ready) && level != (filterOf (s.standInputs n) k).settled }) :=
  congrArg Host.Outcome.next (if_neg moves)

end Sys2Proof.Machine

namespace Sys2Proof.Statements

open Sys2Proof.Machine Sys2Proof.Safety

/-! ### The row of a command, by its form -/

/-- A command's block part, for the row of each command. -/
def blockOf : Command → Buffer → State → Taken
  | .enterReel => enterReel
  | .findReel => findReel
  | .fetchReel => fetchReel
  | .amendReel => amendReel
  | .mountReel => mountReel
  | .prepareReel => prepareReel
  | .unmountReel => unmountReel
  | .retireReel => retireReel
  | .reorder => reorder
  | .standEnable => standEnable
  | .standDisable => standDisable
  | .standReset => standReset
  | .threadReel => threadReel
  | .hold => hold
  | .release => release
  | .spliceSoon => spliceSoon
  | .spliceNow => spliceNow
  | .output => output
  | .fetchStand => fetchStand
  | .profileWrite => profileWrite
  | .profileRead => profileRead
  | .profileChange => profileChange
  | .pathSet => pathSet
  | .fetchPath => fetchPath
  | .acceptNotice => acceptNotice
  | .endNotice => endNotice
  | .deviceReset => deviceResetNotTaken

/-- The row of every command takes the one course of commands with its own block's part. -/
theorem exec_rowOf (c : Command) (e : CmdEvent) (s : State) :
    exec (rowOf c e) s = .next (commandRow c (blockOf c) e s) := by
  cases c <;> rfl

/-! ### The obligations -/

/-- Settles O22: a device reset apart, only the rows of the webs change a counter and only PATH SET changes settings. -/
theorem onlyPulsesCountAndOnlyPathSetSets : Obligations.OnlyPulsesCountAndOnlyPathSetSets := by
  intro i s s' p wellFormed e reset
  have next {u : State} (h : exec i s = .next u) : u = s' := Host.Outcome.next.inj (h.symm.trans e)
  -- a row that leaves webs and settings, and one that resets the device
  have leaves (webs : s'.webs = s.webs) (settings : s'.settings = s.settings) :
      (s'.web p).counter = (s.web p).counter ∧ s'.setting p = s.setting p := by
    simp only [State.web, State.setting, webs, settings, and_self]
  by_cases resets : mayReset i = true
  · have course : (s'.phase ≠ .ready ∧ (i = .resetLineAsserted ∨ ∃ e, i = .deviceReset e)) ∧
          (∃ phase, s' = s.deviceReset phase) ∨ s'.webs = s.webs ∧ s'.settings = s.settings := by
      cases i with
      | resetLineAsserted =>
        obtain rfl := next rfl
        exact .inl ⟨⟨by simp, .inl rfl⟩, _, rfl⟩
      | deviceReset e' =>
        obtain rfl := next rfl
        obtain reset | kept := commandRow_deviceReset e' s
        · exact .inl ⟨⟨by rw [reset]; simp, .inr ⟨_, rfl⟩⟩, _, reset⟩
        · exact .inr kept
      | undefinedCommandCode code =>
        obtain rfl := next rfl
        have undefined : Command.ofCode code = none := by
          simp only [Instr.wellFormed, Bool.and_eq_true, Option.isNone_iff_eq_none] at wellFormed
          exact wellFormed.2
        refine .inr ?_
        unfold State.writeRegister
        split
        · obtain ⟨f, port⟩ := writeCode_port (s := s) (code := code) (by simp [undefined])
          dsimp only
          exact port ▸ ⟨rfl, rfl⟩
        · exact ⟨rfl, rfl⟩
      | ignoredRegisterWrite offset value =>
        obtain rfl := next rfl
        obtain ⟨f, port⟩ := writeRegister_ignored wellFormed
        exact .inr (port ▸ ⟨rfl, rfl⟩)
      | _ => exact absurd resets Bool.false_ne_true
    obtain ⟨isReset, phase, after⟩ | ⟨webs, settings⟩ := course
    · refine ⟨fun _ => .inr ⟨?_, isReset⟩, fun _ => .inr ⟨?_, isReset⟩⟩
      · rw [after, State.deviceReset_web]
        rfl
      · rw [after, State.deviceReset_setting]
        rfl
    · exact ⟨fun changed => absurd (leaves webs settings).1 changed, fun changed => absurd (leaves webs settings).2 changed⟩
  · have noReset : mayReset i = false := by simpa using resets
    refine ⟨fun changed => ?_, fun changed => ?_⟩
    · by_cases web : changesWeb i = true
      · cases i with
        | webPulse q since =>
          obtain rfl := next rfl
          obtain same | ⟨counts, rfl⟩ := counter_webPulse q since s p
          · exact absurd same changed
          · exact .inl ⟨counts, since, rfl⟩
        | motionTimerExpiry q order =>
          obtain rfl := next rfl
          exact absurd (counter_motionTimerExpiry q order s p) changed
        | _ => exact absurd web Bool.false_ne_true
      · exact absurd ((kept_counter noReset (by simpa using web) s s p).exec rfl e) changed
    · obtain same | isSet := (kept_settingsSet noReset s s p).exec (.inl rfl) e
      · exact absurd same changed
      · exact .inl isSet

/-- Settles O23: samples and dead reckoning write no larger diameter, and no other row writes the diameter of a running reel. -/
theorem runningDiameterNeverIncreases : Obligations.RunningDiameterNeverIncreases := by
  intro s s' h r r' e held running held' _
  obtain rfl | ⟨i, rest, run⟩ := step_cases e
  · exact (congrArg Reel.diameter (Option.some.inj (held'.symm.trans held))).le
  · exact (kept_diameterAtMost i (s := s.withPending rest) held running).exec
      (fun w there => (congrArg Reel.diameter (Option.some.inj (there.symm.trans held))).le) run r' held'

/-- Settles O20: by the courses of the rows of the field, and the four cases of an input that moves. -/
theorem inputsAreFilteredAndIgnoredBeforeReady : Obligations.InputsAreFilteredAndIgnoredBeforeReady := by
  refine ⟨fun i s notReady field => ?ignored, ?moves, fun n k s settling => ?settles⟩
  case ignored =>
    obtain ⟨event, -, runs⟩ := runsEvent_of_fieldRow field
    rw [runs, State.atEvent_notReady event s notReady]
  case settles =>
    have settles : s.atSettling n k false id = settledAt s n k false := if_pos ⟨settling.timer, settling.input⟩
    exact congrArg Host.Outcome.next ((State.atEvent_ready _ s settling.ready).trans (by rw [settles]))
  intro n k level s f run
  refine ⟨fun stays => ?_, fun notReady moves => ?_, fun ready moves away => ?_, fun ready moves back => ?_⟩
  · exact congrArg Host.Outcome.next (if_pos stays)
  · have timer : (decide (s.phase = .ready) && level != f.settled) = false := by simp [notReady]
    exact (exec_keyInputChange moves).trans (by rw [timer])
  · have timer : (decide (s.phase = .ready) && level != f.settled) = true := by simp [ready, Ne.symm away]
    exact (exec_keyInputChange moves).trans (by rw [timer])
  · have timer : (decide (s.phase = .ready) && level != f.settled) = false := by simp [ready, back]
    exact (exec_keyInputChange moves).trans (by rw [timer])

/-- Settles O21: every row answers `next`; a row whose event does not arise runs on a guard that fails. -/
theorem everyRowTakesANextState : Obligations.EveryRowTakesANextState := by
  refine ⟨fun i s => ?_, fun s owes => ⟨fun t notDue => ?_, fun p order stopped => ?_, fun n => ⟨fun stopped => ?_,
    fun stopped => ?_, fun stopped => ?_, fun ended => ?_, fun ended => ?_, fun k idle => ?_, fun k idle => ?_⟩⟩,
    fun s => ⟨fun c position h => ?_, fun none => ?_, fun phase => ?_, fun phase => ?_⟩⟩
  · have next : ∃ u, exec i s = .next u := by cases i <;> exact ⟨_, rfl⟩
    obtain ⟨u, run⟩ := next
    exact ⟨u, run, (kept_pending i s s).exec rfl run⟩
  · rw [exec_rowOfTarget, State.targetRow_of_not_due s t owes (State.targetDue_eq_false notDue)]
  · exact exec_idle (event := fun s => s.expireMotionTimer p order) owes (if_neg (by simp [stopped])) rfl
  · refine exec_idle (event := fun s => if beforePaste (s.stand n).state ∧ (s.stand n).runUpTimer.isSome = true then
      s.stallSplice n else s) owes (if_neg ?_) rfl
    obtain other | stopped := stopped
    · simp [other]
    · simp [stopped]
  · refine exec_idle (event := fun s => if (s.stand n).state = .backoff ∧ (s.stand n).backoffTimer.isSome = true then
      s.retry n else s) owes (if_neg ?_) rfl
    obtain other | stopped := stopped
    · simp [other]
    · simp [stopped]
  · exact exec_idle (event := fun s => if (s.stand n).brakeTimer.isSome then
      (s.modStand n fun st => { st with brakeTimer := none }).modOutputs n fun o => { o with brake := false } else s)
      owes (if_neg (by simp [stopped])) rfl
  · exact exec_idle (event := fun s => s.modOutputs n fun o => { o with paste := none }) owes
      (State.modOutputs_id s n _ (by rw [← ended])) rfl
  · exact exec_idle (event := fun s => s.modOutputs n fun o => { o with knife := none }) owes
      (State.modOutputs_id s n _ (by rw [← ended])) rfl
  · exact exec_idle (event := fun s => s.atSettling n k false id) owes (State.atSettling_of_not idle id) rfl
  · cases k with
    | loadDone arm =>
      exact exec_idle (event := fun s => s.atSettling n (.loadDone arm) true fun s => s.pressLoadDone n arm) owes
        (State.atSettling_of_not idle _) rfl
    | hold =>
      exact exec_idle (event := fun s => s.atSettling n .hold true fun s => s.pressHold n) owes
        (State.atSettling_of_not idle _) rfl
    | splice =>
      exact exec_idle (event := fun s => s.atSettling n .splice true fun s => s.pressSplice n) owes
        (State.atSettling_of_not idle _) rfl
    | webBreak =>
      exact exec_idle (event := fun s => s.atSettling n .webBreak true fun s => s.takeBreak n) owes
        (State.atSettling_of_not idle _) rfl
  · exact (exec_rowOf c _ s).trans (congrArg _ (takeHanded_of_not h _))
  · exact congrArg Host.Outcome.next (by rw [none])
  · exact congrArg Host.Outcome.next (if_neg phase)
  · exact congrArg Host.Outcome.next (if_neg phase)

end Sys2Proof.Statements
end

section
/-! PROOFS. The Press Port (sections 10.1 to 10.6), device reset and initialisation (section 10.7), and the state right after device
reset. -/

namespace Sys2Proof.Machine

open Sys2Proof.Safety Sys2Proof.Statements

/-! ### Codes and bits -/

/-- A code names the command that has it, and no other code does (Figure 42). -/
theorem ofCode_eq_some_iff (code : Byte) (c : Command) : Command.ofCode code = some c ↔ c.code = code := by
  refine ⟨fun named => ?_, fun has => has ▸ ofCode_code c⟩
  unfold Command.ofCode at named
  split at named <;> cases named <;> exact BitVec.eq_of_toNat_eq (Eq.symm ‹_›)

theorem ofCode_eq_none {code : Byte} (h : ∀ c : Command, c.code ≠ code) : Command.ofCode code = none :=
  Option.eq_none_iff_forall_ne_some.2 fun c named => h c ((ofCode_eq_some_iff code c).1 named)

theorem getLsbD_flagByte (b : Bool) (i : Nat) : (flagByte b).getLsbD i = (decide (i = 0) && b) := by
  cases b
  · simp [flagByte]
  · simp [flagByte, BitVec.getLsbD_one]

/-- The bits of a byte of flags are the flags, from bit 0. -/
theorem getLsbD_bitsByte (l : List Bool) (i : Nat) : (bitsByte l).getLsbD i = (decide (i < 8) && (l[i]?).getD false) := by
  induction l generalizing i with
  | nil => simp [bitsByte]
  | cons b rest ih =>
    rw [bitsByte, BitVec.getLsbD_or, getLsbD_flagByte, BitVec.getLsbD_shiftLeft, ih]
    cases i with
    | zero => simp
    | succ k =>
      by_cases inByte : k + 1 < 8
      · simp [inByte, Nat.lt_of_succ_lt inByte]
      · simp [inByte]

/-! ### The parameter buffer (R173) -/

/-- The index advances by 1, from 23 to 0. -/
theorem index_advance : ∀ i : Fin Config.bufferBytes, (i + 1).val = if i.val = 23 then 0 else i.val + 1 := by decide

theorem writeRegister_ready {s : State} (ready : s.phase = .ready) (offset : Fin 8) (value : Byte) :
    s.writeRegister offset value =
      match offset with
      | 0 => s.writeCode value
      | 1 => s
      | 2 => s
      | 3 => s.writeBuffer value
      | 4 => s.writeIndex value
      | 5 => s
      | 6 => s.writeEnables value
      | 7 => s.writeControl value :=
  if_pos ready

theorem writeRegister_notReady {s : State} (notReady : s.phase ≠ .ready) (offset : Fin 8) (value : Byte) :
    s.writeRegister offset value = s := if_neg notReady

theorem writeCode_notReady {s : State} (notReady : s.phase ≠ .ready) (code : Byte) : s.writeCode code = s := if_pos notReady

theorem writeCode_busy {s : State} (ready : s.phase = .ready) (busy : s.port.busy = true) (code : Byte) :
    s.writeCode code = s.modPort fun q => { q with overrun := true } := by
  rw [State.writeCode, if_neg (by simp [ready]), if_pos busy]

/-- A code that names no command completes at once (R174). -/
theorem writeCode_undefined {s : State} (ready : s.phase = .ready) (idle : s.port.busy = false) {code : Byte} (given : code ≠ 0)
    (undefined : ∀ c : Command, c.code ≠ code) :
    s.writeCode code = (s.modPort fun q => { q with overrun := false }).complete ⟨.badCommand, []⟩ := by
  rw [State.writeCode, if_neg (by simp [ready]), if_neg (by simp [idle]), if_neg given, ofCode_eq_none undefined]

/-- While BUSY is set, the row of a command is its code write in the form `atOnce` too: no block has a command to take. -/
theorem commandRow_atOnce_not {s : State} (h : s.phase ≠ .ready ∨ s.port.busy = true) (c : Command)
    (act : Buffer → State → Taken) : commandRow c act .atOnce s = s.writeCode c.code := by
  refine if_neg fun ⟨ready, idle⟩ => ?_
  obtain notReady | busy := h
  · exact notReady ready
  · exact absurd idle (by simp [busy])

theorem commandRow_atOnce {s : State} (ready : s.phase = .ready) (idle : s.port.busy = false) (c : Command)
    (act : Buffer → State → Taken) :
    commandRow c act .atOnce s = takeHanded c act s.port.handed.length (s.writeCode c.code) :=
  if_pos ⟨ready, idle⟩

/-! ### SRQ's condition (R164) -/

theorem any_isSome_iff {α : Type} {k : Nat} (v : Vector (Option α) k) :
    v.toList.any Option.isSome = true ↔ ∃ i : Fin k, v[i] ≠ none := by
  simp only [List.any_eq_true, Vector.mem_toList_iff, Vector.mem_iff_getElem, Option.isSome_iff_ne_none]
  constructor
  · rintro ⟨x, ⟨i, inRange, rfl⟩, pending⟩
    exact ⟨⟨i, inRange⟩, pending⟩
  · rintro ⟨i, pending⟩
    exact ⟨_, ⟨i.val, i.isLt, rfl⟩, pending⟩

/-! ### Discarded commands (R180) -/

/-- The taking of a discarded command leaves what its block and the decisions leave. -/
theorem takeHanded_discarded {s : State} {c : Command} {act : Buffer → State → Taken} {position : Nat} {ps : Buffer}
    (ready : s.phase = .ready) (handed : s.port.handed[position]? = some ⟨c, ps, true⟩)
    (first : mayTake s.port.handed position ⟨c, ps, true⟩ = true) :
    takeHanded c act position s = (act ps (taken s position)).state.settleDecisions := by
  simp [takeHanded, handed, ready, first, taken]

/-! ### Inputs at a reset and at the end of initialisation (R184, R185) -/

theorem filterOf_atReset (i : Inputs) (k : KeyInput) : filterOf i.atReset k = (filterOf i k).atReset := by
  match k with
  | .loadDone .a | .loadDone .b | .loadDone .c | .hold | .splice | .webBreak => rfl

theorem markTaken_atReset (i : Inputs) (arm : Arm) : markTaken i.atReset arm = false := by cases arm <;> rfl

theorem filterOf_takeLevels (i : Inputs) (k : KeyInput) :
    filterOf (State.takeLevels i) k = ⟨(filterOf i k).input, (filterOf i k).input, false⟩ := by
  match k with
  | .loadDone .a | .loadDone .b | .loadDone .c | .hold | .splice | .webBreak => rfl

theorem markTaken_takeLevels (i : Inputs) (arm : Arm) : markTaken (State.takeLevels i) arm = false := by cases arm <;> rfl

theorem atResetValues_deviceReset (s : State) (phase : Phase) : AtResetValues s (s.deviceReset phase) where
  blocks := rfl
  timers n k := by
    rw [State.deviceReset_standInputs, filterOf_atReset]
    rfl
  marks n arm := by rw [State.deviceReset_standInputs, markTaken_atReset]
  levels n k := by
    rw [State.deviceReset_standInputs, filterOf_atReset]
    rfl

theorem standInputs_ofFn (s : State) (phase : Phase) (f : StandNo → Inputs) (n : StandNo) :
    ({ s with phase := phase, inputs := Vector.ofFn f } : State).standInputs n = f n := by
  simp [State.standInputs]

/-- The state right after device reset is what a device reset leaves of it. -/
theorem deviceReset_reset : State.reset.deviceReset .initialising = State.reset := by
  have inputs : (Vector.ofFn fun n => (State.reset.standInputs n).atReset) = State.reset.inputs := by
    simp only [State.reset_standInputs]
    rfl
  rw [State.deviceReset, inputs]
  rfl

end Sys2Proof.Machine

namespace Sys2Proof.Statements

open Sys2Proof.Machine Sys2Proof.Safety

/-! ### The machine -/

/-- Settles O1: by the queue's front. -/
theorem stepTakesTheFrontCommand : Obligations.StepTakesTheFrontCommand := by
  intro c rest s front
  rw [step, front]

/-- Settles O2: block by block, from what each block holds after device reset. -/
theorem resetGivesTheSpecsValues : Obligations.ResetGivesTheSpecsValues := by
  refine ⟨⟨rfl, fun h => by simp⟩, fun n => ?stand, fun n => ?watcher, fun p => ?web, fun p => ?arbiter, fun p => ?transit,
    fun n => ?profile, fun p => ?setting, ?notices, ?port, fun n => ?output, fun n k => ?filter, fun i => ?register⟩
  case stand => simp [Stand.reset]
  case watcher => simp [Watcher.reset]
  case web => simp [Web.reset]
  case arbiter => simp [Arbiter.reset, Marks.clear]
  case transit => simp [Transit.reset]
  case profile => simp [StandProfile.reset, Profile.default]
  case setting => simp [PathSettings.default]
  case notices => exact ⟨rfl, rfl, rfl, rfl, rfl, rfl, rfl, rfl, fun c => by cases c <;> rfl⟩
  case port =>
    refine ⟨rfl, rfl, rfl, rfl, fun i => ?_, rfl, rfl, rfl⟩
    simp [State.reset, Port.reset]
  case output => simp [Outputs.reset]
  case filter =>
    rw [State.reset_standInputs]
    match k with
    | .loadDone .a | .loadDone .b | .loadDone .c | .hold | .splice | .webBreak => rfl
  case register => fin_cases i <;> rfl

/-- Settles O3: the state right after device reset is one that a device reset leaves, and a device reset leaves every invariant. -/
theorem invariantsHoldAtReset : Obligations.InvariantsHoldAtReset := by
  unfold Obligations.InvariantsHoldAtReset
  rw [← deviceReset_reset]
  have ⟨reject, clear, transits⟩ := transitsFollowed_deviceReset State.reset .initialising
  have ⟨settings, profiles⟩ := profilesFollowed_deviceReset State.reset .initialising
  have owes := noDecisionOwed_deviceReset State.reset .initialising
  exact ⟨rfl, reject, clear, owes, fun n => by simp [Stand.reset], transits, settings, profiles,
    fun h _ _ _ held => absurd held (by simp), fun h _ _ _ _ held => absurd held (by simp), oneCommand_deviceReset ..,
    noArbiterIdles_of_rests (arbitersFollowed_deviceReset ..).1 owes⟩

/-! ### The Press Port -/

/-- Settles O11: the code write hands the command over, and `atOnce` takes it from the state so written. -/
theorem codeWriteTakesTheCommand : Obligations.CodeWriteTakesTheCommand := by
  refine fun s ready idle => ⟨fun c handed => ⟨?_, ?_⟩, fun code given undefined => ?_⟩
  · exact (exec_rowOf c _ s).trans (congrArg _ (writeCode_handOver c handed ready idle))
  · rw [exec_rowOf, exec_rowOf, commandRow_atOnce ready idle, writeCode_handOver c handed ready idle]
    rfl
  · refine congrArg Host.Outcome.next ?_
    rw [writeRegister_ready ready]
    dsimp only
    rw [writeCode_undefined ready idle given undefined, State.complete, State.modPort_modPort]
    rfl

/-- Settles O12: each of the writes finds BUSY set before it looks further. -/
theorem busyPortIgnoresWrites : Obligations.BusyPortIgnoresWrites := by
  refine fun s ready busy => ⟨fun c => ⟨?_, ?_⟩, fun code _ => ?_, fun value => ?_, fun value => ?_⟩
  · exact (exec_rowOf c _ s).trans (congrArg _ (writeCode_busy ready busy _))
  · rw [exec_rowOf, commandRow_atOnce_not (.inr busy), writeCode_busy ready busy]
  · exact congrArg Host.Outcome.next ((writeRegister_ready ready 0 code).trans (writeCode_busy ready busy code))
  · exact congrArg Host.Outcome.next ((writeRegister_ready ready 3 value).trans (if_pos busy))
  · exact congrArg Host.Outcome.next ((writeRegister_ready ready 4 value).trans (if_pos busy))

/-- Settles O13: the completion's own definition, for a command whose answer waits. -/
theorem completionWritesTheAnswer : Obligations.CompletionWritesTheAnswer := by
  intro s r reply answer
  refine congrArg Host.Outcome.next ?_
  rw [answer]
  rfl

/-- Settles O14: the read and the two writes of the buffer, with the index's step. -/
theorem bufferAccessMovesTheIndex : Obligations.BufferAccessMovesTheIndex := by
  refine ⟨fun s ready => ⟨⟨_, congrArg Host.Outcome.next (if_pos ready), rfl, index_advance _, rfl⟩, fun idle =>
    ⟨fun value => ?write, fun i => ?index, fun value beyond => ?beyond⟩⟩, fun s notReady => ?notReady⟩
  case write =>
    have writes : s.writeRegister 3 value =
        s.modPort fun q => { q with buffer := q.buffer.set q.index value, index := q.index + 1 } :=
      (writeRegister_ready ready 3 value).trans (if_neg (by simp [idle]))
    refine ⟨_, congrArg Host.Outcome.next writes, fun i => ?_, index_advance _, rfl⟩
    exact (State.getElem_set_fin _ _ _ _).trans (by simp only [eq_comm])
  case index =>
    have inBuffer : (BitVec.ofNat 8 i.val).toNat = i.val := by
      rw [BitVec.toNat_ofNat]
      omega
    refine congrArg Host.Outcome.next ((writeRegister_ready ready 4 _).trans ?_)
    simp [State.writeIndex, idle, inBuffer]
  case beyond =>
    refine congrArg Host.Outcome.next ((writeRegister_ready ready 4 _).trans ?_)
    simp [State.writeIndex, idle, beyond]
  case notReady => exact congrArg Host.Outcome.next (if_neg notReady)

/-- Settles O15: the write's own definition; the condition read class by class. -/
theorem enablesAndPendingNoticesGiveSrq : Obligations.EnablesAndPendingNoticesGiveSrq := by
  refine ⟨fun value s ready => congrArg Host.Outcome.next (writeRegister_ready ready 6 value), fun u => ?_⟩
  simp only [NoticeUnit.srqCondition, NoticeUnit.enabled, NoticeUnit.anyPending, Bool.and_eq_true, Bool.or_eq_true,
    any_isSome_iff, Option.isNone_iff_eq_none, or_assoc]

/-- Settles O16: a PORT RESET discards, and the taking reads the mark of a discarded command only to drop the answer. -/
theorem portResetClearsThePort : Obligations.PortResetClearsThePort := by
  refine ⟨fun value s bit ready => ?_, fun c ps position s _ ready handed first => ?_⟩
  · exact congrArg Host.Outcome.next ((writeRegister_ready ready 7 value).trans (if_pos bit))
  · intro wanted
    have inRange : position < s.port.handed.length := (List.getElem?_eq_some_iff.1 handed).1
    have offered : wanted.port.handed[position]? = some ⟨c, ps, false⟩ := List.getElem?_set_self inRange
    have mayBeTaken : mayTake wanted.port.handed position ⟨c, ps, false⟩ = true := by
      simpa [wanted, mayTake, List.take_set_of_le] using first
    have same : taken wanted position = taken s position := by
      simp only [taken, wanted, State.modPort_modPort, List.eraseIdx_set_eq]
    have takes : takeHanded c (blockOf c) position wanted = answered (blockOf c ps (taken s position)).state
        (blockOf c ps (taken s position)).answer.result (blockOf c ps (taken s position)).answer.reply := by
      rw [← same]
      exact takeHanded_ok (s := wanted) ready offered mayBeTaken
    exact ⟨_, (blockOf c ps (taken s position)).answer, (exec_rowOf c _ wanted).trans (congrArg _ takes),
      (exec_rowOf c _ s).trans (congrArg _ (takeHanded_discarded ready handed first))⟩

/-- Settles O17: offset by offset on a ready port, and by READY otherwise. -/
theorem ignoredWritesChangeNothing : Obligations.IgnoredWritesChangeNothing := by
  refine fun s => ⟨fun value ready => ⟨fun offset ignored => ?_, fun idle => ?_⟩, fun notReady =>
    ⟨fun offset value => ?_, fun c => ⟨?_, ?_⟩, fun value => ?_⟩⟩
  · refine congrArg Host.Outcome.next ((writeRegister_ready ready offset value).trans ?_)
    obtain rfl | rfl | rfl | ⟨rfl, clear⟩ := ignored
    · rfl
    · rfl
    · rfl
    · exact if_neg (by rw [clear]; decide)
  · refine congrArg Host.Outcome.next ((writeRegister_ready ready 0 0).trans ?_)
    simp [State.writeCode, ready, idle]
  · exact congrArg Host.Outcome.next (writeRegister_notReady notReady offset value)
  · exact (exec_rowOf c _ s).trans (congrArg _ (writeCode_notReady notReady _))
  · rw [exec_rowOf, commandRow_atOnce_not (.inl notReady), writeCode_notReady notReady]
  · have ignored (offset : Fin 8) := congrArg (Host.Outcome.next (φ := Fault) (ρ := Refusal))
      (writeRegister_notReady notReady offset value)
    exact ⟨ignored 0, ignored 3, ignored 4, ignored 6, ignored 7⟩

/-- Settles O18: the registers by their offsets, the bits of a byte of flags one by one, and the codes by evaluation. -/
theorem registersAndCodesAreThoseOfTheFigures : Obligations.RegistersAndCodesAreThoseOfTheFigures := by
  refine ⟨fun s => ⟨fun ready => ?ready, fun notReady offset notStatus => ?notReady⟩, fun code c => ofCode_eq_some_iff code c,
    rfl, rfl, rfl, rfl, rfl, rfl, rfl⟩
  case ready =>
    refine ⟨if_pos ready, if_pos ready, if_pos ready, ?_, if_pos ready, fun i => ?status, fun i => ?summary, fun i => ?enables⟩
    · have index : (byteOf s.port.index.val).toNat = s.port.index.val := by
        rw [byteOf, BitVec.toNat_ofNat, Nat.mod_eq_of_lt (Nat.lt_trans s.port.index.isLt (by decide))]
      exact (congrArg BitVec.toNat (if_pos ready)).trans index
    case status =>
      rw [State.readRegister, State.statusRegister, getLsbD_bitsByte]
      match i with
      | 0 | 1 | 2 | 3 | 4 | _ + 5 => simp [ready]
    case summary =>
      rw [State.readRegister, if_pos ready, State.summaryRegister, getLsbD_bitsByte]
      match i with
      | 0 | 1 | 2 | 3 | _ + 4 => simp
    case enables =>
      rw [State.readRegister, if_pos ready, State.enableRegister, getLsbD_bitsByte]
      match i with
      | 0 | 1 | 2 | _ + 3 => simp
  case notReady =>
    match offset, notStatus with
    | 2, isStatus => exact absurd rfl isStatus
    | 0, _ | 1, _ | 3, _ | 4, _ | 5, _ | 6, _ | 7, _ => exact if_neg notReady

/-! ### Device reset -/

/-- Settles O19: both resets are one operation on the state, with the phase they leave; the end of initialisation takes the levels. -/
theorem deviceResetClearsTheController : Obligations.DeviceResetClearsTheController := by
  refine fun s => ⟨⟨_, rfl, rfl, atResetValues_deviceReset s _, rfl⟩, fun ready idle => ?command,
    fun inReset => congrArg Host.Outcome.next (if_pos inReset), fun initialising => ?complete⟩
  case command =>
    have written : s.writeCode Command.deviceReset.code = s.deviceReset .initialising := by
      rw [State.writeCode, if_neg (by simp [ready]), if_neg (by simp [idle]), if_neg (code_ne_zero _), ofCode_code]
    have untaken : takeHanded .deviceReset deviceResetNotTaken s.port.handed.length (s.deviceReset .initialising) =
        s.deviceReset .initialising := takeHanded_of_not (.inl (by simp)) _
    refine ⟨s.deviceReset .initialising, congrArg Host.Outcome.next written, congrArg Host.Outcome.next ?_, rfl,
      atResetValues_deviceReset s _, rfl⟩
    rw [commandRow_atOnce ready idle, written, untaken]
  case complete =>
    refine ⟨_, congrArg Host.Outcome.next (if_pos initialising), rfl, fun n k => ?_, fun n arm => ?_, rfl⟩
    · rw [standInputs_ofFn, filterOf_takeLevels]
    · rw [standInputs_ofFn, markTaken_takeLevels]

end Sys2Proof.Statements
end

section
/-! PROOFS. The arithmetic of the rules, numbers in the buffer (R178), the images (Figures 44 to 50, R179) and the commands that
fetch them. An image is a list of bytes, so that a byte or a number of it is a slice of the list. -/

namespace Sys2Proof.Machine

open Sys2Proof.Safety Sys2Proof.Statements

/-! ### Formulas -/

/-- The number under the root of R48 is below 2^40 for records in the ranges of Figure 6. -/
theorem reckonedSquare_lt {core caliper length : Nat} (hcore : core ≤ 160) (hcaliper : caliper ≤ 150) (hlength : length ≤ 65535) :
    core * core + 40000 * caliper * length / 31416 < 2 ^ 40 := by
  have square : core * core ≤ 160 * 160 := Nat.mul_le_mul hcore hcore
  have product : 40000 * caliper * length ≤ 40000 * 150 * 65535 :=
    Nat.mul_le_mul (Nat.mul_le_mul_left 40000 hcaliper) hlength
  omega

/-- A revolution is in tolerance when the two numbers differ by no more than the allowance, whichever is the larger (R75). -/
theorem inTolerance_eq (pulses circumference perMille : Nat) : inTolerance pulses circumference perMille =
    decide (((pulses : Int) - circumference).natAbs ≤ circumference * perMille / 1000) := by
  rw [inTolerance, ← Bool.decide_and, decide_eq_decide]
  omega

/-! ### Numbers in the buffer (R178) -/

/-- A byte of a reply at a position of the buffer. -/
theorem byteAt_of_getElem? {reply : List Byte} {position : Nat} {b : Byte} (there : reply[position]? = some b)
    (inBuffer : position < 24) : byteAt (bufferOfReply reply) position = b.toNat := by
  rw [byteAt_bufferOfReply reply position inBuffer, there]
  rfl

theorem toNat_byteOf {v : Nat} (h : v < 256) : (byteOf v).toNat = v := by
  rw [byteOf, BitVec.toNat_ofNat, Nat.mod_eq_of_lt h]

/-- A number stands at a position of a reply when its bytes are the slice of the reply there: it is then the number read. -/
theorem valueAt_of_slice {reply : List Byte} {position bytes v : Nat} (slice : (reply.drop position).take bytes = leBytes bytes v)
    (inBuffer : position + bytes ≤ 24) (fits : v < 256 ^ bytes) : valueAt (bufferOfReply reply) position bytes = v := by
  induction bytes generalizing position v with
  | zero =>
    obtain rfl : v = 0 := by simpa using fits
    rfl
  | succ k ih =>
    cases rest : reply.drop position with
    | nil => simp [rest, leBytes] at slice
    | cons first tail =>
      rw [rest, List.take_succ_cons, leBytes] at slice
      obtain ⟨rfl, higher⟩ := List.cons.inj slice
      have low : reply[position]? = some (BitVec.ofNat 8 v) := by
        rw [← List.head?_drop, rest]
        rfl
      have following : reply.drop (position + 1) = tail := by rw [← List.tail_drop, rest, List.tail_cons]
      have high : valueAt (bufferOfReply reply) (position + 1) k = v / 256 := by
        refine ih (by rw [following]; exact higher) (by omega) ?_
        rw [Nat.pow_succ] at fits
        exact Nat.div_lt_of_lt_mul (by rwa [Nat.mul_comm])
      rw [valueAt, high, byteAt_of_getElem? low (by omega), BitVec.toNat_ofNat]
      exact Nat.mod_add_div v 256

/-- The slice of a reply where a number was written. -/
theorem slice_leBytes (before after : List Byte) (bytes v : Nat) :
    ((before ++ leBytes bytes v ++ after).drop before.length).take bytes = leBytes bytes v := by
  rw [List.append_assoc, List.drop_left]
  exact List.take_left' (leBytes_length bytes v)

/-! ### Bytes of flags -/

theorem toNat_flagByte (b : Bool) : (flagByte b).toNat = b.toNat := by cases b <;> rfl

/-- The number whose bits, from bit 0, are the given flags. -/
def flagSum : List Bool → Nat
  | [] => 0
  | b :: rest => b.toNat + 2 * flagSum rest

theorem flagSum_lt (flags : List Bool) : flagSum flags < 2 ^ flags.length := by
  induction flags with
  | nil => decide
  | cons b rest ih =>
    have bit := b.toNat_lt
    rw [flagSum, List.length_cons, Nat.pow_succ]
    omega

/-- A byte of flags holds their number. -/
theorem toNat_bitsByte (flags : List Bool) (short : flags.length ≤ 8) : (bitsByte flags).toNat = flagSum flags := by
  induction flags with
  | nil => rfl
  | cons b rest ih =>
    have below : flagSum rest < 2 ^ 7 :=
      (flagSum_lt rest).trans_le (Nat.pow_le_pow_right (by decide) (Nat.le_of_succ_le_succ short))
    have shifted : (bitsByte rest <<< 1).toNat = 2 ^ 1 * flagSum rest := by
      rw [BitVec.toNat_shiftLeft, ih (Nat.le_of_succ_le short), Nat.shiftLeft_eq]
      omega
    rw [bitsByte, BitVec.toNat_or, toNat_flagByte, shifted, Nat.or_comm, ← Nat.two_pow_add_eq_or_of_lt b.toNat_lt, flagSum]
    omega

/-! ### Codes in replies -/

theorem toNat_handleByte (h : Option Handle) : (handleByte h).toNat = h.elim 255 (·.val) := by
  cases h with
  | none => rfl
  | some h => exact toNat_byteOf (h.isLt.trans (by decide))

theorem toNat_standByte (n : Option StandNo) : (standByte n).toNat = n.elim 255 (·.val) := by
  cases n with
  | none => rfl
  | some n => exact toNat_byteOf (n.isLt.trans (by decide))

theorem toNat_armByte (arm : Option Arm) :
    (armByte arm).toNat = (match arm with | none => 255 | some .a => 0 | some .b => 1 | some .c => 2) := by
  match arm with
  | none | some .a | some .b | some .c => rfl

theorem levelRank_eq (l : Option Level) :
    levelRank l = (match l with | none => 0 | some .early => 1 | some .normal => 2 | some .urgent => 3) := by
  match l with
  | none | some .early | some .normal | some .urgent => rfl

theorem levelRank_lt (l : Option Level) : levelRank l < 4 := by
  match l with
  | none | some .early | some .normal | some .urgent => decide

theorem toNat_spliceNumber_lt (k : Option SpliceNo) : (k.map BitVec.toNat).getD 0 < 256 ^ 2 := by
  cases k with
  | none => decide
  | some k => exact k.isLt

theorem toNat_count_lt (c : Option Count) : (c.map BitVec.toNat).getD 0 < 256 ^ 4 := by
  cases c with
  | none => decide
  | some c => exact c.isLt

/-! ### Numbers over the stands (Figure 47) -/

/-- A digit of a number is the entry of its list of digits. -/
theorem digit_ofDigits {base : Nat} {digits : List Nat} (small : ∀ d ∈ digits, d < base) {i d : Nat}
    (there : digits[i]? = some d) : Nat.ofDigits base digits / base ^ i % base = d := by
  obtain ⟨inRange, rfl⟩ := List.getElem?_eq_some_iff.1 there
  have lt := small _ (List.getElem_mem inRange)
  rw [Nat.ofDigits_div_pow_eq_ofDigits_drop i (Nat.zero_lt_of_lt lt) digits small, List.drop_eq_getElem_cons inRange,
    Nat.ofDigits_cons, Nat.add_mul_mod_self_left]
  exact Nat.mod_eq_of_lt lt

/-- A sum over the stands, each at its own power of a base, has the stands' numbers as its digits. -/
theorem sumOverStands_eq (g : StandNo → Nat) (base : Nat) :
    (List.finRange 12).foldl (fun acc n => acc + g n * base ^ n.val) 0 =
      Nat.ofDigits base ((List.finRange 12).map g) := by
  simp only [List.finRange_succ, List.finRange_zero, List.map_cons, List.map_nil, List.foldl_cons, List.foldl_nil,
    Nat.ofDigits_cons, Nat.ofDigits_nil, Fin.val_succ, Fin.val_zero]
  ring

theorem getElem?_map_finRange (g : StandNo → Nat) (n : StandNo) : ((List.finRange 12).map g)[n.val]? = some (g n) := by
  simp

theorem levelBits_eq (f : StandNo → Option Level) :
    levelBits f = Nat.ofDigits 4 ((List.finRange 12).map fun n => levelRank (f n)) :=
  sumOverStands_eq (fun n => levelRank (f n)) 4

theorem standBits_eq (f : StandNo → Bool) : standBits f = Nat.ofDigits 2 ((List.finRange 12).map fun n => (f n).toNat) := by
  rw [← sumOverStands_eq, standBits]
  congr 1
  funext acc n
  cases f n <;> simp

/-- Two bits of the levels, found in their byte, are those of one stand. -/
theorem levelBits_digit (f : StandNo → Option Level) (n : StandNo) :
    levelBits f / 256 ^ (n.val / 4) % 256 / 4 ^ (n.val % 4) % 4 = levelRank (f n) := by
  have inByte (y : Nat) {j : Nat} (h : j < 4) : y % 256 / 4 ^ j % 4 = y / 4 ^ j % 4 := by
    interval_cases j <;> omega
  have place : (256 : Nat) ^ (n.val / 4) * 4 ^ (n.val % 4) = 4 ^ n.val := by
    rw [show (256 : Nat) = 4 ^ 4 from rfl, ← Nat.pow_mul, ← Nat.pow_add, Nat.div_add_mod]
  rw [inByte _ (Nat.mod_lt _ (by decide)), Nat.div_div_eq_div_mul, place, levelBits_eq]
  exact digit_ofDigits (by simp [levelRank_lt]) (getElem?_map_finRange (fun n => levelRank (f n)) n)

theorem standBits_lt (f : StandNo → Bool) : standBits f < 256 ^ 2 := by
  have small : standBits f < 2 ^ ((List.finRange 12).map fun n => (f n).toNat).length := by
    rw [standBits_eq]
    exact Nat.ofDigits_lt_base_pow_length (by decide) (by simp [Bool.toNat_le])
  exact small.trans_le (by simp)

/-- A bit of a number over the stands is that of one stand. -/
theorem testBit_standBits (f : StandNo → Bool) (n : StandNo) : (standBits f).testBit n.val = f n := by
  have digit : standBits f / 2 ^ n.val % 2 = (f n).toNat := by
    rw [standBits_eq]
    exact digit_ofDigits (by simp [Bool.toNat_le]) (getElem?_map_finRange (fun n => (f n).toNat) n)
  rw [Nat.testBit_eq_decide_div_mod_eq, digit]
  cases f n <;> rfl

/-! ### Bytes of an image -/

theorem byteAt_byteOf {reply : List Byte} {position v : Nat} (there : reply[position]? = some (byteOf v))
    (inBuffer : position < 24) (fits : v < 256) : byteAt (bufferOfReply reply) position = v :=
  (byteAt_of_getElem? there inBuffer).trans (toNat_byteOf fits)

theorem byteAt_handleByte {reply : List Byte} {position v : Nat} (h : Option Handle)
    (there : reply[position]? = some (handleByte h)) (inBuffer : position < 24) (number : h.elim 255 (·.val) = v) :
    byteAt (bufferOfReply reply) position = v :=
  (byteAt_of_getElem? there inBuffer).trans ((toNat_handleByte h).trans number)

theorem byteAt_bitsByte {reply : List Byte} {position v : Nat} (flags : List Bool)
    (there : reply[position]? = some (bitsByte flags)) (inBuffer : position < 24) (short : flags.length ≤ 8)
    (number : flagSum flags = v) : byteAt (bufferOfReply reply) position = v :=
  (byteAt_of_getElem? there inBuffer).trans ((toNat_bitsByte flags short).trans number)

theorem byteAt_standNo {reply : List Byte} {position : Nat} {n : StandNo} (there : reply[position]? = some (byteOf n.val))
    (inBuffer : position < 24) : byteAt (bufferOfReply reply) position = n.val :=
  byteAt_byteOf there inBuffer (n.isLt.trans (by decide))

theorem byteAt_pathNo {reply : List Byte} {position : Nat} {p : PathNo} (there : reply[position]? = some (byteOf p.val))
    (inBuffer : position < 24) : byteAt (bufferOfReply reply) position = p.val :=
  byteAt_byteOf there inBuffer (p.isLt.trans (by decide))

/-! ### What FETCH REEL, FETCH STAND and FETCH PATH answer (R14, R179) -/

section

variable {ps : Buffer} {s : State}

theorem fetchReel_done {h : Handle} {r : Reel} (named : byteAt ps 0 = h.val) (held : s.reel h = some r) :
    fetchReel ps s = done s (reelImage h r) :=
  withHandle_ok h r named held

theorem fetchStand_status {n : StandNo} (named : byteAt ps 0 = n.val) (part : byteAt ps 1 = 0) :
    fetchStand ps s = done s (standStatusImage n (s.stand n) (s.watcher n) (s.profile n)) := by
  rw [fetchStand, withStand_ok n named, part]
  rfl

theorem fetchStand_context {n : StandNo} (named : byteAt ps 0 = n.val) (part : byteAt ps 1 = 1) :
    fetchStand ps s = done s (spliceContextImage n (s.stand n)) := by
  rw [fetchStand, withStand_ok n named, part]
  rfl

theorem fetchStand_badValue {n : StandNo} (named : byteAt ps 0 = n.val) (part : 2 ≤ byteAt ps 1) :
    fetchStand ps s = refuse s .badValue := by
  obtain ⟨k, part⟩ := Nat.exists_eq_add_of_le' part
  rw [fetchStand, withStand_ok n named, part]
  rfl

variable {p : PathNo} (named : byteAt ps 0 = p.val)
include named

theorem fetchPath_status (part : byteAt ps 1 = 0) : fetchPath ps s = done s (pathStatusImage s p) := by
  rw [fetchPath, withPath_ok p named, part]
  rfl

theorem fetchPath_settings (part : byteAt ps 1 = 5) : fetchPath ps s = done s (settingsImage p (s.setting p)) := by
  rw [fetchPath, withPath_ok p named, part]
  rfl

theorem fetchPath_record (low : 1 ≤ byteAt ps 1) (high : byteAt ps 1 ≤ 4) :
    fetchPath ps s = done s (transitRecordImage p (byteAt ps 1) ((s.transit p).queue[byteAt ps 1 - 1]?)) := by
  rw [fetchPath, withPath_ok p named]
  generalize byteAt ps 1 = part at *
  interval_cases part <;> rfl

theorem fetchPath_badValue (beyond : 6 ≤ byteAt ps 1) : fetchPath ps s = refuse s .badValue := by
  obtain ⟨k, part⟩ := Nat.exists_eq_add_of_le' beyond
  rw [fetchPath, withPath_ok p named, part]
  exact if_neg (by omega)

end

end Sys2Proof.Machine

namespace Sys2Proof.Statements

open Sys2Proof.Machine Sys2Proof.Safety

/-- Settles O24: formula by formula, with the bound of the square root from the ranges of Figure 6. -/
theorem formulasAreTheSpecs : Obligations.FormulasAreTheSpecs := by
  refine ⟨fun target distance small => reached_advance target distance small, fun diameter core caliper _ => ?length,
    fun _ => rfl, fun _ => rfl, fun core caliper length hcore hcaliper hlength => ?reckoned, inTolerance_eq,
    fun circumference offset lead positive => (firePointOf_spec circumference offset lead positive).2⟩
  case length => rw [lengthOf, sq, sq]
  case reckoned => rw [reckonedDiameter, squareRoot_eq_sqrt _ (reckonedSquare_lt hcore hcaliper hlength), sq]

/-- Settles O25: the slice of the reply where the number was written is its bytes, read one by one or as a number. -/
theorem numbersRoundTripThroughTheBuffer : Obligations.NumbersRoundTripThroughTheBuffer := by
  refine ⟨fun before after bytes value inBuffer => ⟨leBytes_length bytes value, fun k inNumber => ?byte, fun fits => ?number⟩,
    fun ps => ⟨valueAt_eq_sum ps, fun i => ?read⟩⟩
  case byte =>
    have there : (before ++ leBytes bytes value ++ after)[before.length + k]? = some (BitVec.ofNat 8 (value / 256 ^ k)) := by
      rw [List.append_assoc, List.getElem?_append_right (Nat.le_add_right _ _), Nat.add_sub_cancel_left,
        List.getElem?_append_left (by rwa [leBytes_length]), leBytes_getElem? bytes value k inNumber]
    rw [byteAt_of_getElem? there (by omega), BitVec.toNat_ofNat]
  case number => exact valueAt_of_slice (slice_leBytes before after bytes value) inBuffer fits
  case read => simp [byteAt]

/-- Settles O26: each byte and number is a slice of the image. -/
theorem reelAndNoticeImagesHaveTheirLayout : Obligations.ReelAndNoticeImagesHaveTheirLayout := by
  refine ⟨fun h r tag grade width core diameter caliper length offset => ?record, fun o => ?notice⟩
  case record =>
    have offsetFits : r.offset.getD 0 < 256 ^ 2 := by
      cases e : r.offset with
      | none => decide
      | some o => exact offset o e
    refine ⟨rfl, byteAt_byteOf rfl (by decide) (h.isLt.trans (by decide)), valueAt_of_slice rfl (by decide) tag,
      byteAt_byteOf rfl (by decide) grade, byteAt_byteOf rfl (by decide) width, byteAt_byteOf rfl (by decide) core,
      valueAt_of_slice rfl (by decide) diameter, byteAt_byteOf rfl (by decide) caliper,
      valueAt_of_slice rfl (by decide) length, valueAt_of_slice rfl (by decide) offsetFits, ?state, ?stand, ?arm, ?flags,
      valueAt_of_slice rfl (by decide) (toNat_spliceNumber_lt _)⟩
    case state => exact (byteAt_of_getElem? rfl (by decide)).trans (by cases r.state <;> rfl)
    case stand =>
      refine (byteAt_of_getElem? rfl (by decide)).trans ((toNat_standByte (r.place.map (·.stand))).trans ?_)
      cases r.place <;> rfl
    case arm =>
      refine (byteAt_of_getElem? rfl (by decide)).trans ((toNat_armByte (r.place.map (·.arm))).trans ?_)
      match r.place with
      | none | some ⟨_, .a⟩ | some ⟨_, .b⟩ | some ⟨_, .c⟩ => rfl
    case flags =>
      refine byteAt_bitsByte [r.mismatch, r.lock, r.deadReckoning, r.stale, r.offset.isSome, r.spliceNumber.isSome]
        rfl (by decide) (by simp) ?_
      simp only [flagSum]
      omega
  case notice =>
    refine ⟨rfl, byteAt_byteOf rfl (by decide) (o.source.isLt.trans (by decide)), ?cls, byteAt_of_getElem? rfl (by decide),
      ?noticeFlags, byteAt_handleByte o.notice.detail.running rfl (by decide) (by cases o.notice.detail.running <;> rfl),
      byteAt_handleByte o.notice.detail.candidate rfl (by decide) (by cases o.notice.detail.candidate <;> rfl),
      valueAt_of_slice rfl (by decide) (toNat_spliceNumber_lt _), ?reason⟩
    case cls => exact (byteAt_of_getElem? rfl (by decide)).trans (by cases o.cls <;> rfl)
    case noticeFlags =>
      refine byteAt_bitsByte [o.notice.detail.running.isSome, o.notice.detail.candidate.isSome, o.notice.detail.spliceNumber.isSome,
          o.notice.detail.reason.isSome]
        rfl (by decide) (by simp) ?_
      simp only [flagSum]
      omega
    case reason =>
      refine (byteAt_of_getElem? rfl (by decide)).trans ?_
      cases o.notice.detail.reason with
      | none => rfl
      | some reason => cases reason <;> rfl

/-- Settles O27: each byte and number is a slice of the image of its part. -/
theorem standImageHasItsLayout : Obligations.StandImageHasItsLayout := by
  refine ⟨fun n st w q pLast field short => ?status, fun n st c context circumference matches' fire marks => ?context⟩
  case status =>
    refine ⟨rfl, byteAt_standNo rfl (by decide), ?state,
      byteAt_handleByte st.running rfl (by decide) (by cases st.running <;> rfl),
      byteAt_byteOf rfl (by decide) (short.trans_lt (by decide)),
      byteAt_handleByte (st.queue[0]?) rfl (by decide) (by cases st.queue[0]? <;> rfl),
      byteAt_handleByte (st.queue[1]?) rfl (by decide) (by cases st.queue[1]? <;> rfl), ?flags, ?level, ?deferred, ?watch,
      valueAt_of_slice rfl (by decide) pLast, ?outcome, byteAt_byteOf rfl (by decide) field, fun none => ?noContext⟩
    case state => exact (byteAt_of_getElem? rfl (by decide)).trans (by cases st.state <;> rfl)
    case flags =>
      refine byteAt_bitsByte [st.warn, st.splice, st.critical, st.hold, st.lock, st.stall, st.webBroken]
        rfl (by decide) (by simp) ?_
      simp only [flagSum]
      omega
    case level =>
      exact (byteAt_byteOf rfl (by decide) ((levelRank_lt st.level).trans (by decide))).trans (levelRank_eq st.level)
    case deferred =>
      refine byteAt_bitsByte [st.deferredReset, st.deferredDisable, st.deferredProfile]
        rfl (by decide) (by simp) ?_
      simp only [flagSum]
      omega
    case watch => exact (byteAt_of_getElem? rfl (by decide)).trans (by cases w.state <;> rfl)
    case outcome => exact (byteAt_of_getElem? rfl (by decide)).trans (by cases q.outcome <;> rfl)
    case noContext =>
      rw [spliceContextImage, none]
      refine Vector.ext fun i inBuffer => ?_
      match i with
      | 0 | 1 | k + 2 => simp [bufferOfReply, byteOf]
  case context =>
    have image : spliceContextImage n st = [byteOf n.val] ++
        [bitsByte [true, c.forced, c.permitHeld, c.watchArmed, c.breakInCut, c.firePoint.isSome, c.spliceNumber.isSome]] ++
        [handleByte (some c.fresh), armByte c.freshArm, handleByte c.former] ++ leBytes 2 c.circumference ++
        [byteOf c.matchCount] ++ leBytes 2 (c.firePoint.getD 0) ++
        countBytes (if c.watchArmed then c.watchDeadline else none) ++ countBytes (stageTarget st.state c) ++
        spliceNumberBytes c.spliceNumber ++ [byteOf c.settleMarks] := by
      rw [spliceContextImage, context]
    have fireFits : c.firePoint.getD 0 < 256 ^ 2 := by
      cases e : c.firePoint with
      | none => decide
      | some f => exact fire f e
    rw [image]
    refine ⟨rfl, byteAt_standNo rfl (by decide), ?contextFlags, byteAt_handleByte (some c.fresh) rfl (by decide) rfl, ?arm,
      byteAt_handleByte c.former rfl (by decide) (by cases c.former <;> rfl), valueAt_of_slice rfl (by decide) circumference,
      byteAt_byteOf rfl (by decide) matches', valueAt_of_slice rfl (by decide) fireFits, ?deadline, ?stage,
      valueAt_of_slice rfl (by decide) (toNat_spliceNumber_lt _), byteAt_byteOf rfl (by decide) marks⟩
    case contextFlags =>
      refine byteAt_bitsByte [true, c.forced, c.permitHeld, c.watchArmed, c.breakInCut, c.firePoint.isSome, c.spliceNumber.isSome]
        rfl (by decide) (by simp) ?_
      simp only [flagSum, Bool.toNat_true]
      omega
    case arm =>
      refine (byteAt_of_getElem? rfl (by decide)).trans ((toNat_armByte c.freshArm).trans ?_)
      match c.freshArm with
      | none | some .a | some .b | some .c => rfl
    case deadline =>
      refine (valueAt_of_slice rfl (by decide) (toNat_count_lt (if c.watchArmed then c.watchDeadline else none))).trans ?_
      cases c.watchArmed <;> rfl
    case stage =>
      refine (valueAt_of_slice rfl (by decide) (toNat_count_lt (stageTarget st.state c))).trans ?_
      cases st.state <;> rfl

/-- Settles O28: each byte and number is a slice of the image of its part; a stand's level and marks are digits of numbers over the
stands. -/
theorem pathImageHasItsLayout : Obligations.PathImageHasItsLayout := by
  refine ⟨fun s p bound => ?status, fun p position r inPart merged => ?record, fun p position => rfl,
    fun p g guardLength rejectLead rejectLength stopTime => ⟨rfl, byteAt_pathNo rfl (by decide),
      valueAt_of_slice rfl (by decide) guardLength, valueAt_of_slice rfl (by decide) rejectLead,
      valueAt_of_slice rfl (by decide) rejectLength, valueAt_of_slice rfl (by decide) stopTime⟩⟩
  case status =>
    refine ⟨rfl, byteAt_pathNo rfl (by decide), valueAt_of_slice rfl (by decide) (s.web p).counter.isLt, ?flags, ?permit, ?holder,
      valueAt_of_slice rfl (by decide) (s.transit p).spliceCounter.isLt,
      byteAt_byteOf rfl (by decide) (bound.trans_lt (by decide)), fun n => ?level, fun n => ⟨?early, ?normal, ?urgent⟩⟩
    case flags =>
      refine byteAt_bitsByte [(s.web p).moving, (s.transit p).reject, (s.arbiter p).pathClear]
        rfl (by decide) (by simp) ?_
      simp only [flagSum]
      omega
    case permit => exact (byteAt_of_getElem? rfl (by decide)).trans (by cases (s.arbiter p).permit <;> rfl)
    case holder =>
      refine (byteAt_of_getElem? rfl (by decide)).trans ((toNat_standByte (permitHolder (s.arbiter p).permit)).trans ?_)
      cases (s.arbiter p).permit <;> rfl
    case level =>
      let requests : StandNo → Option Level := fun n => if s.pathOf n = p then (s.arbiter p).requests[n] else none
      have inBytes : n.val / 4 < 3 := by omega
      have there : (pathStatusImage s p)[11 + n.val / 4]? = some (BitVec.ofNat 8 (levelBits requests / 256 ^ (n.val / 4))) := by
        have slice : (pathStatusImage s p)[11 + n.val / 4]? = (leBytes 3 (levelBits requests))[n.val / 4]? := by
          generalize n.val / 4 = k at inBytes
          interval_cases k <;> rfl
        rw [slice, leBytes_getElem? 3 _ _ inBytes]
      rw [byteAt_of_getElem? there (by omega), BitVec.toNat_ofNat]
      refine (levelBits_digit requests n).trans ?_
      by_cases here : s.pathOf n = p
      · simp only [requests, if_pos here]
        exact levelRank_eq _
      · simp only [requests, if_neg here]
        rfl
    case early =>
      rw [valueAt_of_slice rfl (by decide) (standBits_lt fun n => s.pathOf n = p && (s.arbiter p).marks[n].early)]
      exact testBit_standBits _ n
    case normal =>
      rw [valueAt_of_slice rfl (by decide) (standBits_lt fun n => s.pathOf n = p && (s.arbiter p).marks[n].normal)]
      exact testBit_standBits _ n
    case urgent =>
      rw [valueAt_of_slice rfl (by decide) (standBits_lt fun n => s.pathOf n = p && (s.arbiter p).marks[n].urgent)]
      exact testBit_standBits _ n
  case record =>
    refine ⟨rfl, byteAt_pathNo rfl (by decide), byteAt_byteOf rfl (by decide) (inPart.trans_lt (by decide)), ?recordFlags,
      valueAt_of_slice rfl (by decide) r.spliceNumber.isLt, byteAt_standNo rfl (by decide),
      valueAt_of_slice rfl (by decide) r.pasteCount.isLt, valueAt_of_slice rfl (by decide) r.rejectStart.isLt,
      valueAt_of_slice rfl (by decide) r.rejectEnd.isLt, valueAt_of_slice rfl (by decide) r.guardCount.isLt,
      byteAt_byteOf rfl (by decide) (merged.trans_lt (by decide))⟩
    case recordFlags =>
      refine byteAt_bitsByte [r.rejecting, r.guardReached, r.forced, r.overlap, false, false, false, true]
        rfl (by decide) (by simp) ?_
      simp only [flagSum, Bool.toNat_true, Bool.toNat_false]
      omega

/-- Settles O31: the checks of each command in their order, then the image of the part it names. -/
theorem fetchCommandsAnswerTheImages : Obligations.FetchCommandsAnswerTheImages := by
  refine fun ps position s owes => ⟨fun offered => ⟨fun bad => ?badHandle, fun h r named held => ?reel⟩,
    fun offered => ⟨fun bad => ?badStand, fun n named => ⟨fun part => ?status, fun part => ?context, fun part => ?badPart⟩⟩,
    fun offered => ⟨fun bad => ?badPath, fun p named => ⟨fun part => ?path, fun low high => ?record, fun part => ?settings,
      fun part => ?beyond⟩⟩⟩
  case badHandle => exact take_unchanged offered owes (withHandle_bad (s := taken s position) bad)
  case reel => exact take_unchanged offered owes (fetchReel_done (s := taken s position) named held)
  case badStand => exact take_unchanged offered owes (withStand_bad (s := taken s position) bad)
  case status => exact take_unchanged offered owes (fetchStand_status (s := taken s position) named part)
  case context => exact take_unchanged offered owes (fetchStand_context (s := taken s position) named part)
  case badPart => exact take_unchanged offered owes (fetchStand_badValue (s := taken s position) named part)
  case badPath => exact take_unchanged offered owes (withPath_bad (s := taken s position) bad)
  case path => exact take_unchanged offered owes (fetchPath_status (s := taken s position) named part)
  case record => exact take_unchanged offered owes (fetchPath_record (s := taken s position) named low high)
  case settings => exact take_unchanged offered owes (fetchPath_settings (s := taken s position) named part)
  case beyond => exact take_unchanged offered owes (fetchPath_badValue (s := taken s position) named part)

end Sys2Proof.Statements
end

section
/-! PROOFS. AMEND REEL (R15, R16, Figure 8): the amendment that a mask and its values give, the test of it against the state of
the record, and the record that it leaves. -/

namespace Sys2Proof.Machine

/-! ### The amendment that the parameters give -/

/-- An item is accepted when it is not named, or named with a value in range (R178, R3). -/
theorem amendedItem_some {mask bit value : Nat} {inRange : Nat → Bool} (h : mask.testBit bit = true → inRange value = true) :
    amendedItem mask bit value inRange = some (if mask.testBit bit then some value else none) := by
  rw [amendedItem]
  split
  case isTrue named => rw [if_pos (h named)]
  case isFalse => rfl

theorem inRange_of_amendedItem {mask bit value : Nat} {inRange : Nat → Bool} {item : Option Nat}
    (h : amendedItem mask bit value inRange = some item) (named : mask.testBit bit = true) : inRange value = true := by
  by_contra bad
  simp [amendedItem, named, bad] at h

/-- The pattern offset is accepted when it is not named, or absent, or present with a value in range (R178, R3). -/
theorem amendedOffset_some {mask presence value : Nat}
    (h : mask.testBit 5 = true → presence = 0 ∨ presence = 1 ∧ value ≤ 999) :
    amendedOffset mask presence value =
      some (if mask.testBit 5 then some (if presence = 1 then some value else none) else none) := by
  rw [amendedOffset]
  split
  case isTrue named =>
    have accepted : presence = 0 ∨ presence = 1 ∧ offsetInRange value = true := by
      simpa [offsetInRange, within_iff] using h named
    rw [optionalValue_eq, if_pos accepted]
    rfl
  case isFalse => rfl

theorem inRange_of_amendedOffset {mask presence value : Nat} {item : Option (Option Nat)}
    (h : amendedOffset mask presence value = some item) (named : mask.testBit 5 = true) :
    presence = 0 ∨ presence = 1 ∧ value ≤ 999 := by
  by_contra bad
  simp [amendedOffset, named, optionalValue_eq, offsetInRange, within_iff, bad] at h

/-- The mask names no bit above 5, and every named value lies in its range (R15, R178). -/
def AmendmentInRange (ps : Buffer) : Prop :=
  let names := fun bit => (byteAt ps 1).testBit bit
  byteAt ps 1 < 64 ∧ (names 0 = true → 1 ≤ byteAt ps 2 ∧ byteAt ps 2 ≤ 63) ∧
    (names 1 = true → 1 ≤ byteAt ps 3 ∧ byteAt ps 3 ≤ 4) ∧ (names 2 = true → 70 ≤ byteAt ps 4 ∧ byteAt ps 4 ≤ 160) ∧
    (names 3 = true → 100 ≤ valueAt ps 5 2 ∧ valueAt ps 5 2 ≤ 1400) ∧
    (names 4 = true → 40 ≤ byteAt ps 7 ∧ byteAt ps 7 ≤ 150) ∧
    (names 5 = true → byteAt ps 8 = 0 ∨ byteAt ps 8 = 1 ∧ valueAt ps 9 2 ≤ 999)

/-- The amendment of the items that the mask names, to the values of the parameters. -/
def namedAmendment (ps : Buffer) : Amendment :=
  let names := fun bit => (byteAt ps 1).testBit bit
  { grade := if names 0 then some (byteAt ps 2) else none
    width := if names 1 then some (byteAt ps 3) else none
    core := if names 2 then some (byteAt ps 4) else none
    diameter := if names 3 then some (valueAt ps 5 2) else none
    caliper := if names 4 then some (byteAt ps 7) else none
    offset := if names 5 then some (if byteAt ps 8 = 1 then some (valueAt ps 9 2) else none) else none }

theorem amendmentOf_of_inRange {ps : Buffer} (h : AmendmentInRange ps) : amendmentOf ps = some (namedAmendment ps) := by
  obtain ⟨mask, grade, width, core, diameter, caliper, offset⟩ := h
  have accepted {low high value : Nat} (bounds : low ≤ value ∧ value ≤ high) : within low high value = true :=
    (within_iff ..).2 bounds
  have grade := amendedItem_some (inRange := gradeInRange) fun named => accepted (grade named)
  have width := amendedItem_some (inRange := widthInRange) fun named => accepted (width named)
  have core := amendedItem_some (inRange := coreInRange) fun named => accepted (core named)
  have diameter := amendedItem_some (inRange := diameterInRange) fun named => accepted (diameter named)
  have caliper := amendedItem_some (inRange := caliperInRange) fun named => accepted (caliper named)
  simp only [amendmentOf, if_neg (Nat.not_le.2 mask), grade, width, core, diameter, caliper, amendedOffset_some offset,
    namedAmendment]

theorem inRange_of_amendmentOf {ps : Buffer} {m : Amendment} (h : amendmentOf ps = some m) : AmendmentInRange ps := by
  simp only [amendmentOf] at h
  split at h
  case isTrue => exact absurd h (by simp)
  case isFalse mask =>
    split at h
    next _ _ _ _ _ _ grade width core diameter caliper offset =>
      exact ⟨Nat.not_le.1 mask, fun named => (within_iff ..).1 (inRange_of_amendedItem grade named),
        fun named => (within_iff ..).1 (inRange_of_amendedItem width named),
        fun named => (within_iff ..).1 (inRange_of_amendedItem core named),
        fun named => (within_iff ..).1 (inRange_of_amendedItem diameter named),
        fun named => (within_iff ..).1 (inRange_of_amendedItem caliper named), inRange_of_amendedOffset offset⟩
    next => exact absurd h (by simp)

theorem amendmentOf_of_not_inRange {ps : Buffer} (h : ¬AmendmentInRange ps) : amendmentOf ps = none :=
  Option.eq_none_iff_forall_ne_some.2 fun _ given => h (inRange_of_amendmentOf given)

/-! ### What the amendment names and writes -/

/-- The mask names grade, width class, core or diameter: an item other than caliper and pattern offset. -/
def NamesOther (ps : Buffer) : Prop :=
  let names := fun bit => (byteAt ps 1).testBit bit
  names 0 = true ∨ names 1 = true ∨ names 2 = true ∨ names 3 = true

/-- The record with the named items written, before its length is computed (R16). -/
def writtenRecord (ps : Buffer) (r : Reel) : Reel :=
  let names := fun bit => (byteAt ps 1).testBit bit
  { r with
    grade := if names 0 then byteAt ps 2 else r.grade
    width := if names 1 then byteAt ps 3 else r.width
    core := if names 2 then byteAt ps 4 else r.core
    diameter := if names 3 then valueAt ps 5 2 else r.diameter
    caliper := if names 4 then byteAt ps 7 else r.caliper
    offset := if names 5 then (if byteAt ps 8 = 1 then some (valueAt ps 9 2) else none) else r.offset }

theorem isSome_ite_some {α : Type} (b : Bool) (v : α) : (if b then some v else none).isSome = b := by cases b <;> rfl

theorem getD_ite_some {α : Type} (b : Bool) (v d : α) : (if b then some v else none).getD d = if b then v else d := by
  cases b <;> rfl

theorem amendFields_named (ps : Buffer) (r : Reel) : amendFields (namedAmendment ps) r = writtenRecord ps r := by
  simp only [amendFields, namedAmendment, getD_ite_some]
  rfl

theorem namesOther_iff (ps : Buffer) : namesOtherThanCaliperAndOffset (namedAmendment ps) = true ↔ NamesOther ps := by
  simp only [namesOtherThanCaliperAndOffset, namedAmendment, isSome_ite_some, Bool.or_eq_true, NamesOther, or_assoc]

theorem namesLengthItem_named (ps : Buffer) :
    namesLengthItem (namedAmendment ps) =
      ((byteAt ps 1).testBit 2 || (byteAt ps 1).testBit 3 || (byteAt ps 1).testBit 4) := by
  simp only [namesLengthItem, namedAmendment, isSome_ite_some]

/-- A number below 64 with the bits 0 to 5 clear is 0. -/
theorem eq_zero_of_testBit {mask : Nat} (small : mask < 64) (clear : ∀ bit < 6, mask.testBit bit = false) : mask = 0 := by
  refine Nat.eq_of_testBit_eq fun bit => ?_
  rw [Nat.zero_testBit]
  by_cases low : bit < 6
  · exact clear bit low
  · exact Nat.testBit_lt_two_pow (lt_of_lt_of_le small (Nat.pow_le_pow_right (n := 2) (by decide) (Nat.not_lt.1 low)))

/-- An amendment names nothing exactly when its mask is 0. -/
theorem namesNothing_iff {ps : Buffer} (small : byteAt ps 1 < 64) :
    namesNothing (namedAmendment ps) = true ↔ byteAt ps 1 = 0 := by
  simp only [namesNothing, namesOtherThanCaliperAndOffset, namedAmendment, isSome_ite_some, Bool.not_eq_true',
    Bool.or_eq_false_iff]
  constructor
  · rintro ⟨⟨⟨⟨⟨bit0, bit1⟩, bit2⟩, bit3⟩, bit4⟩, bit5⟩
    refine eq_zero_of_testBit small fun bit low => ?_
    interval_cases bit <;> assumption
  · intro zero
    simp [zero]

/-! ### The test of the mask against the state (Figure 8) -/

section

variable {ps : Buffer} {r : Reel}

theorem amendRefusal_prepared_other (state : r.state = .prepared) (other : NamesOther ps) :
    amendRefusal (namedAmendment ps) r = some .wrongState := by
  simp only [amendRefusal, state]
  exact if_pos ((namesOther_iff ps).2 other)

theorem amendRefusal_prepared_locked (small : byteAt ps 1 < 64) (state : r.state = .prepared) (only : ¬NamesOther ps)
    (lock : r.lock = true) (names : byteAt ps 1 ≠ 0) : amendRefusal (namedAmendment ps) r = some .inSplice := by
  have something := mt (namesNothing_iff small).1 names
  simp only [amendRefusal, state, if_neg (mt (namesOther_iff ps).1 only), lock, Bool.not_eq_true] at something ⊢
  rw [something]
  rfl

theorem amendRefusal_running (state : r.state = .running) (named : NamesOther ps ∨ (byteAt ps 1).testBit 5 = true) :
    amendRefusal (namedAmendment ps) r = some .wrongState := by
  have refused : (namesOtherThanCaliperAndOffset (namedAmendment ps) || (namedAmendment ps).offset.isSome) = true := by
    rw [Bool.or_eq_true, namesOther_iff]
    exact named.imp_right fun bit => (isSome_ite_some ..).trans bit
  simp only [amendRefusal, state]
  exact if_pos refused

theorem amendRefusal_butt (small : byteAt ps 1 < 64) (state : r.state = .butt) (names : byteAt ps 1 ≠ 0) :
    amendRefusal (namedAmendment ps) r = some .wrongState := by
  simp only [amendRefusal, state]
  exact if_neg (mt (namesNothing_iff small).1 names)

theorem amendRefusal_none (small : byteAt ps 1 < 64)
    (allowed : r.state = .staged ∨ r.state = .mounted ∨
      (r.state = .prepared ∧ ¬NamesOther ps ∧ (r.lock = false ∨ byteAt ps 1 = 0)) ∨
      (r.state = .running ∧ ¬NamesOther ps ∧ (byteAt ps 1).testBit 5 = false) ∨ (r.state = .butt ∧ byteAt ps 1 = 0)) :
    amendRefusal (namedAmendment ps) r = none := by
  rcases allowed with state | state | ⟨state, only, free⟩ | ⟨state, only, offset⟩ | ⟨state, nothing⟩
  · simp only [amendRefusal, state]
  · simp only [amendRefusal, state]
  · have permitted : (r.lock && !namesNothing (namedAmendment ps)) = false := by
      rcases free with unlocked | nothing
      · rw [unlocked, Bool.false_and]
      · rw [(namesNothing_iff small).2 nothing, Bool.not_true, Bool.and_false]
    simp only [amendRefusal, state, if_neg (mt (namesOther_iff ps).1 only), permitted]
    rfl
  · have absent : (namedAmendment ps).offset.isSome = false := (isSome_ite_some ..).trans offset
    simp only [amendRefusal, state, Bool.eq_false_iff.2 (mt (namesOther_iff ps).1 only), absent]
    rfl
  · simp only [amendRefusal, state]
    exact if_pos ((namesNothing_iff small).2 nothing)

/-! ### What the Reel Table answers to AMEND REEL -/

/-- The record after the amendment, its length computed once where an item it depends on is named (R16). -/
theorem amendedReel_named (ps : Buffer) (r : Reel) :
    amendedReel (namedAmendment ps) r =
      { writtenRecord ps r with
        length :=
          if (byteAt ps 1).testBit 2 || (byteAt ps 1).testBit 3 || (byteAt ps 1).testBit 4 then
            lengthOf (writtenRecord ps r).diameter (writtenRecord ps r).core (writtenRecord ps r).caliper
          else r.length } := by
  rw [amendedReel, namesLengthItem_named, amendFields_named]
  by_cases dependent : ((byteAt ps 1).testBit 2 || (byteAt ps 1).testBit 3 || (byteAt ps 1).testBit 4) = true
  · simp only [if_pos dependent]
  · simp only [if_neg dependent]
    rfl

theorem amendReel_badHandle {s : State} (bad : ∀ h : Handle, byteAt ps 0 = h.val → s.reel h = none) :
    amendReel ps s = refuse s .badHandle :=
  withHandle_bad bad

variable {s : State} {h : Handle} (named : byteAt ps 0 = h.val) (held : s.reel h = some r)
include named held

theorem amendReel_badValue (bad : ¬AmendmentInRange ps) : amendReel ps s = refuse s .badValue := by
  rw [amendReel, withHandle_ok h r named held, amendmentOf_of_not_inRange bad]

/-- The test of a named core or diameter against the other (R15). -/
def CoreInReel (ps : Buffer) (r : Reel) : Prop :=
  (byteAt ps 1).testBit 2 = true ∨ (byteAt ps 1).testBit 3 = true → (writtenRecord ps r).core ≤ (writtenRecord ps r).diameter

omit named held in
theorem coreTest_iff (ps : Buffer) (r : Reel) :
    (((namedAmendment ps).core.isSome || (namedAmendment ps).diameter.isSome) &&
      decide ((amendFields (namedAmendment ps) r).diameter < (amendFields (namedAmendment ps) r).core)) = true ↔
      ¬CoreInReel ps r := by
  rw [amendFields_named]
  simp only [namedAmendment, isSome_ite_some, Bool.and_eq_true, Bool.or_eq_true, decide_eq_true_eq, CoreInReel,
    Classical.not_imp, Nat.not_le]

theorem amendReel_badCore (valid : AmendmentInRange ps) (bad : ¬CoreInReel ps r) : amendReel ps s = refuse s .badValue := by
  rw [amendReel, withHandle_ok h r named held, amendmentOf_of_inRange valid]
  exact if_pos ((coreTest_iff ps r).2 bad)

theorem amendReel_refused (valid : AmendmentInRange ps) (inside : CoreInReel ps r) {result : Result}
    (refusal : amendRefusal (namedAmendment ps) r = some result) : amendReel ps s = refuse s result := by
  have core := mt (coreTest_iff ps r).1 (not_not_intro inside)
  rw [amendReel, withHandle_ok h r named held, amendmentOf_of_inRange valid]
  simp only [if_neg core, refusal]

theorem amendReel_done (valid : AmendmentInRange ps) (inside : CoreInReel ps r)
    (allowed : amendRefusal (namedAmendment ps) r = none) :
    amendReel ps s =
      done (s.setReel h (some (amendedReel (namedAmendment ps) r))) (reelImage h (amendedReel (namedAmendment ps) r)) := by
  have core := mt (coreTest_iff ps r).1 (not_not_intro inside)
  rw [amendReel, withHandle_ok h r named held, amendmentOf_of_inRange valid]
  simp only [if_neg core, allowed]

end

end Sys2Proof.Machine

namespace Sys2Proof.Statements

open Sys2Proof.Machine Sys2Proof.Safety

/-- Settles O32: the range of the amendment, its test against the state of the record, and the record it leaves. -/
theorem amendReelWritesTheNamedItems : Obligations.AmendReelWritesTheNamedItems := by
  intro ps position s offered owes run
  refine ⟨fun bad => take_unchanged offered owes (amendReel_badHandle bad), ?_⟩
  intro h r named held mask names amended inRange other
  have range_iff : inRange ↔ AmendmentInRange ps ∧ CoreInReel ps r := by
    constructor
    · rintro ⟨small, grade, width, core, diameter, caliper, offset, inside⟩
      exact ⟨⟨small, grade, width, core, diameter, caliper, offset⟩, inside⟩
    · rintro ⟨⟨small, grade, width, core, diameter, caliper, offset⟩, inside⟩
      exact ⟨small, grade, width, core, diameter, caliper, offset, inside⟩
  have refused (valid : inRange) {result : Result} (refusal : amendRefusal (namedAmendment ps) r = some result) :
      run = .next (replied s position result []) := by
    obtain ⟨valid, inside⟩ := range_iff.1 valid
    exact take_unchanged offered owes (amendReel_refused (s := taken s position) named held valid inside refusal)
  refine ⟨fun bad => ?badValue, fun valid state other => refused valid (amendRefusal_prepared_other state other),
    fun valid state only lock nonzero => refused valid (amendRefusal_prepared_locked valid.1 state only lock nonzero),
    fun valid state barred => refused valid (amendRefusal_running state barred),
    fun valid state nonzero => refused valid (amendRefusal_butt valid.1 state nonzero), fun valid allowed => ?done⟩
  case badValue =>
    by_cases valid : AmendmentInRange ps
    · have outside : ¬CoreInReel ps r := fun inside => bad (range_iff.2 ⟨valid, inside⟩)
      exact take_unchanged offered owes (amendReel_badCore (s := taken s position) named held valid outside)
    · exact take_unchanged offered owes (amendReel_badValue (s := taken s position) named held valid)
  case done =>
    intro w
    have record : amendedReel (namedAmendment ps) r = w := amendedReel_named ps r
    obtain ⟨valid, inside⟩ := range_iff.1 valid
    have acts := amendReel_done (s := taken s position) named held valid inside (amendRefusal_none valid.1 allowed)
    rw [record] at acts
    exact take_setReel offered owes acts

end Sys2Proof.Statements
end

section
/-! PROOFS. The order queue (R18 to R22, R28 to R31): the offer of a reel, its leave by command, and the rows of PREPARE REEL,
LOAD DONE, UNMOUNT REEL and RETIRE REEL, after which the decisions owed are made. -/

namespace Sys2Proof.Machine

/-! ### The offer of a reel (R28, R29) -/

/-- The join test: the grade and the width class are required, or not cared for (R27). -/
theorem joinTest_iff (w : Profile) (r : Reel) :
    joinTest w r = true ↔
      (w.requiredGrade = 0 ∨ w.requiredGrade = r.grade) ∧ (w.requiredWidth = 0 ∨ w.requiredWidth = r.width) := by
  simp only [joinTest, Bool.and_eq_true, Bool.or_eq_true, beq_iff_eq]

namespace State

/-- A record with MISMATCH clear joins a stand's queue at the tail. -/
def joinQueue (s : State) (n : StandNo) (h : Handle) (r : Reel) : State :=
  (s.setReel h (some { r with mismatch := false })).modStand n fun st => { st with queue := st.queue ++ [h] }

theorem joinQueue_stand_self (s : State) (n : StandNo) (h : Handle) (r : Reel) :
    (s.joinQueue n h r).stand n = { s.stand n with queue := (s.stand n).queue ++ [h] } :=
  modStand_stand_self _ _ _

theorem readFlagsWith_of_none {force : StandNo → State → State} {s : State} {n : StandNo}
    (none : levelCalledFor (s.stand n) = none) : s.readFlagsWith force n = s :=
  if_neg fun called => called.2 none

theorem readFlagsWith_of_some {force : StandNo → State → State} {s : State} {n : StandNo} {l : Level}
    (candidate : (s.stand n).queue ≠ []) (called : levelCalledFor (s.stand n) = some l) :
    s.readFlagsWith force n = s.enterWaitingWith force n (some l) := by
  have both : (s.stand n).queue ≠ [] ∧ levelCalledFor (s.stand n) ≠ none := ⟨candidate, by rw [called]; exact nofun⟩
  exact (if_pos both).trans (congrArg _ called)

section

variable {s : State} {n : StandNo} {h : Handle} {r : Reel} (held : s.reel h = some r)
include held

theorem offer_refused (bad : ¬joinTest (s.working n) r = true) :
    s.offer n h =
      (s.setReel h (some { r with mismatch := true })).fileReel n .mismatch ⟨(s.stand n).running, some h, none, none⟩ := by
  rw [offer, offerWith, held, Option.any_some, if_neg bad, refuseJoin, modReel_some _ held]
  rfl

variable (fits : joinTest (s.working n) r = true)
include fits

/-- A reel that joins a queue which held a reel, or a stand that does not run, joins and no more. -/
theorem offer_joined (still : ¬((s.stand n).queue = [] ∧ (s.stand n).state = .running)) :
    s.offer n h = s.joinQueue n h r := by
  simp only [offer, offerWith, held, Option.any_some, if_pos fits, if_neg still, modReel_some _ held]
  rfl

/-- A running stand whose queue was empty reads its flags. -/
theorem offer_reads (running : (s.stand n).queue = [] ∧ (s.stand n).state = .running) :
    s.offer n h = (s.joinQueue n h r).readFlagsWith forcedTake n := by
  simp only [offer, offerWith, held, Option.any_some, if_pos fits, if_pos running, modReel_some _ held]
  rfl

theorem offer_no_level (called : levelCalledFor (s.stand n) = none) : s.offer n h = s.joinQueue n h r := by
  by_cases running : (s.stand n).queue = [] ∧ (s.stand n).state = .running
  · rw [offer_reads held fits running]
    exact readFlagsWith_of_none ((congrArg levelCalledFor (s.joinQueue_stand_self n h r)).trans called)
  · exact offer_joined held fits running

theorem offer_waits (empty : (s.stand n).queue = []) (running : (s.stand n).state = .running) {l : Level}
    (called : levelCalledFor (s.stand n) = some l) : s.offer n h = (s.joinQueue n h r).enterWaiting n (some l) := by
  have candidate : ((s.joinQueue n h r).stand n).queue ≠ [] := by simp [joinQueue_stand_self]
  rw [offer_reads held fits ⟨empty, running⟩]
  exact readFlagsWith_of_some candidate ((congrArg levelCalledFor (s.joinQueue_stand_self n h r)).trans called)

end

/-! ### The leave by command (R30, R31) -/

theorem leaveByCommand_of_head_ne {s : State} {n : StandNo} {h : Handle} (other : (s.stand n).queue.head? ≠ some h) :
    s.leaveByCommand n h = s.leaveQueue n h :=
  if_neg other

theorem leaveByCommand_of_head {s : State} {n : StandNo} {h : Handle} (head : (s.stand n).queue.head? = some h) :
    s.leaveByCommand n h = (s.leaveQueue n h).respondToLeave (s.pathOf n) n h :=
  if_pos head

theorem leaveQueue_stand_self (s : State) (n : StandNo) (h : Handle) :
    (s.leaveQueue n h).stand n = { s.stand n with queue := (s.stand n).queue.filter (· != h) } :=
  modStand_stand_self _ _ _

theorem respondToLeave_of_entries {s : State} {p : PathNo} {n : StandNo} {left : Handle} (entries : (s.stand n).queue ≠ []) :
    s.respondToLeave p n left = s :=
  if_neg entries

/-- Only a WAITING stand and one in BACKOFF answer the loss of their candidate. -/
theorem respondToLeave_of_state {s : State} {p : PathNo} {n : StandNo} {left : Handle}
    (waiting : (s.stand n).state ≠ .waiting) (backoff : (s.stand n).state ≠ .backoff) : s.respondToLeave p n left = s := by
  simp only [respondToLeave]
  split
  · split
    case h_1 state => exact absurd state waiting
    case h_2 state => exact absurd state backoff
    all_goals rfl
  · rfl

theorem respondToLeave_waiting {s : State} {p : PathNo} {n : StandNo} {left : Handle} (empty : (s.stand n).queue = [])
    (state : (s.stand n).state = .waiting) :
    s.respondToLeave p n left =
      ((s.modStand n fun st => { st with state := .running, level := none }).withdrawRequest p n).fileReel n .candidateLost
        ⟨(s.stand n).running, some left, none, none⟩ := by
  simp only [respondToLeave, if_pos empty, state]
  rfl

theorem respondToLeave_backoff {s : State} {p : PathNo} {n : StandNo} {left : Handle} (empty : (s.stand n).queue = [])
    (state : (s.stand n).state = .backoff) :
    s.respondToLeave p n left = s.fileReel n .candidateLost ⟨(s.stand n).running, some left, none, none⟩ := by
  simp only [respondToLeave, if_pos empty, state]
  rfl

end State

end Sys2Proof.Machine

namespace Sys2Proof.Statements

open Sys2Proof.Machine Sys2Proof.Safety

/-- Settles O34: the join test, and the level that the flags of a running stand call for. -/
theorem anOfferedReelJoinsOrIsRefused : Obligations.AnOfferedReelJoinsOrIsRefused := by
  intro s n h r held st w fits joined
  have test : joinTest (s.working n) r = true ↔ fits := joinTest_iff _ _
  refine ⟨fun bad => State.offer_refused held (mt test.1 bad), fun valid still => ?still,
    fun valid empty running splice => ?urgent, fun valid empty running splice warn => ?normal⟩
  case still =>
    rcases still with entries | state | ⟨splice, warn⟩
    · exact State.offer_joined held (test.2 valid) fun both => entries both.1
    · exact State.offer_joined held (test.2 valid) fun both => state both.2
    · have none : levelCalledFor st = none := by simp [levelCalledFor, splice, warn]
      exact State.offer_no_level held (test.2 valid) none
  case urgent =>
    have called : levelCalledFor st = some .urgent := by simp [levelCalledFor, splice]
    exact State.offer_waits held (test.2 valid) empty running called
  case normal =>
    have called : levelCalledFor st = some .normal := by simp [levelCalledFor, splice, warn]
    exact State.offer_waits held (test.2 valid) empty running called

/-- Settles O37: whether the entry that left was the last one, and the state of the stand. -/
theorem theLeaveOfAHeadIsAnswered : Obligations.TheLeaveOfAHeadIsAnswered := by
  intro s n h st closed lost
  have closes : (s.leaveQueue n h).stand n = { st with queue := st.queue.filter (· != h) } := s.leaveQueue_stand_self n h
  have state : ((s.leaveQueue n h).stand n).state = st.state := by rw [closes]
  have running : ((s.leaveQueue n h).stand n).running = st.running := by rw [closes]
  have queue : ((s.leaveQueue n h).stand n).queue = st.queue.filter (· != h) := by rw [closes]
  have emptied (single : st.queue = [h]) : ((s.leaveQueue n h).stand n).queue = [] := by simp [queue, single]
  have answered (single : st.queue = [h]) : s.leaveByCommand n h = (s.leaveQueue n h).respondToLeave (s.pathOf n) n h :=
    State.leaveByCommand_of_head (by rw [show (s.stand n).queue = [h] from single]; rfl)
  refine ⟨fun single waiting => ?waiting, fun single backoff => ?backoff, fun unanswered => ?unanswered⟩
  case waiting =>
    rw [answered single, State.respondToLeave_waiting (emptied single) (state.trans waiting), running]
    rfl
  case backoff =>
    rw [answered single, State.respondToLeave_backoff (emptied single) (state.trans backoff), running]
    rfl
  case unanswered =>
    by_cases head : st.queue.head? = some h
    · refine (State.leaveByCommand_of_head head).trans ?_
      rcases unanswered with entries | other | ⟨waiting, backoff⟩
      · exact State.respondToLeave_of_entries (queue ▸ entries)
      · exact absurd head other
      · exact State.respondToLeave_of_state (state ▸ waiting) (state ▸ backoff)
    · exact State.leaveByCommand_of_head_ne head

end Sys2Proof.Statements
end

section
/-! PROOFS. The rows that offer a reel or take it away: PREPARE REEL (R18, R19), LOAD DONE (R22), UNMOUNT REEL (R20) and RETIRE
REEL (R21). The decisions that such a row prompts follow it. -/

namespace Sys2Proof.Machine

/-! ### The position in the queue (R18) -/

theorem queuePosition_head {queue : List Handle} {h : Handle} (head : queue[0]? = some h) : queuePosition queue h = 1 :=
  if_pos head

theorem queuePosition_second {queue : List Handle} {h : Handle} (head : queue[0]? ≠ some h) (second : queue[1]? = some h) :
    queuePosition queue h = 2 :=
  (if_neg head).trans (if_pos second)

/-- A handle that is neither the head nor second is at position 0. -/
theorem queuePosition_of_not_mem {queue : List Handle} {h : Handle} (out : h ∉ queue.take 2) : queuePosition queue h = 0 := by
  have ahead {k : Nat} (low : k < 2) : queue[k]? ≠ some h := fun there =>
    out (List.mem_of_getElem? (i := k) ((List.getElem?_take_of_lt low).trans there))
  exact (if_neg (ahead (by decide))).trans (if_neg (ahead (by decide)))

/-! ### What the Reel Table answers to PREPARE REEL (R18, R19) -/

section

variable {ps : Buffer} {s : State}

theorem prepareReel_badHandle (bad : ∀ h : Handle, byteAt ps 0 = h.val → s.reel h = none) :
    prepareReel ps s = refuse s .badHandle :=
  withHandle_bad bad

variable {h : Handle} {r : Reel} (named : byteAt ps 0 = h.val) (held : s.reel h = some r)
include named held

theorem prepareReel_unplaced (unplaced : r.place = none) : prepareReel ps s = refuse s .wrongState := by
  rw [prepareReel, withHandle_ok h r named held, unplaced]

variable {place : Place} (placed : r.place = some place)
include placed

theorem prepareReel_wrongState (bad : ¬(r.state = .mounted ∨ r.state = .prepared ∧ h ∉ (s.stand place.stand).queue)) :
    prepareReel ps s = refuse s .wrongState := by
  rw [prepareReel, withHandle_ok h r named held, placed]
  exact if_neg bad

variable (mayOffer : r.state = .mounted ∨ r.state = .prepared ∧ h ∉ (s.stand place.stand).queue)
include mayOffer

theorem prepareReel_queueFull (full : 2 ≤ (s.stand place.stand).queue.length) : prepareReel ps s = refuse s .queueFull := by
  rw [prepareReel, withHandle_ok h r named held, placed]
  exact (if_pos mayOffer).trans (if_neg (Nat.not_lt.2 full))

theorem prepareReel_done (room : (s.stand place.stand).queue.length < 2) :
    prepareReel ps s =
      done ((s.setReel h (some { r with state := .prepared })).offer place.stand h)
        [BitVec.ofNat 8 h.val, 2,
          byteOf (queuePosition
            ((((s.setReel h (some { r with state := .prepared })).offer place.stand h)).stand place.stand).queue h)] := by
  have offers : s.prepareAndOffer place.stand h = (s.setReel h (some { r with state := .prepared })).offer place.stand h :=
    congrArg (State.offer · place.stand h) (State.modReel_some _ held)
  rw [← offers, prepareReel, withHandle_ok h r named held, placed]
  exact (if_pos mayOffer).trans (if_pos room)

end

/-! ### What a press of LOAD DONE does (R22) -/

/-- Where places are distinct, the arm holds the record that has it as its place (R6). -/
theorem State.armHolds_of_place {s : State} (distinct : Safety.PlacesDistinct s) {h : Handle} {r : Reel} {n : StandNo} {arm : Arm}
    (held : s.reel h = some r) (place : r.place = some ⟨n, arm⟩) : s.armHolds n arm = some h := by
  cases found : s.armHolds n arm with
  | none => exact absurd place ((s.armHolds_eq_none_iff n arm).1 found h r held)
  | some k =>
    have holds := List.find?_some found
    obtain ⟨q, slot, same⟩ : ∃ q, s.reel k = some q ∧ q.place = some ⟨n, arm⟩ := by
      simpa [Option.bind_eq_some_iff] using holds
    rw [distinct k h q r _ slot held same place]

section

variable {s : State} {n : StandNo} {arm : Arm}

theorem State.pressLoadDone_unregistered (empty : s.armHolds n arm = none) :
    s.pressLoadDone n arm = s.fileReel n .unregisteredLoad ⟨none, none, none, none⟩ := by
  rw [pressLoadDone, empty]
  rfl

variable {h : Handle} {r : Reel} (holds : s.armHolds n arm = some h) (held : s.reel h = some r)
include holds held

theorem State.pressLoadDone_offers (mounted : r.state = .mounted) (room : (s.stand n).queue.length < 2) :
    s.pressLoadDone n arm = (s.setReel h (some { r with state := .prepared })).offer n h := by
  have ready : (s.reel h).any (fun r => decide (r.state = .mounted)) = true ∧
      (s.stand n).queue.length < Config.queueCapacity := ⟨by rw [held, Option.any_some, decide_eq_true mounted], room⟩
  rw [pressLoadDone, holds, ← modReel_some (fun r : Reel => { r with state := .prepared }) held]
  exact if_pos ready

theorem State.pressLoadDone_nothing (barred : r.state ≠ .mounted ∨ 2 ≤ (s.stand n).queue.length) :
    s.pressLoadDone n arm = s := by
  rw [pressLoadDone, holds]
  refine if_neg fun ⟨mounted, room⟩ => ?_
  rw [held, Option.any_some, decide_eq_true_eq] at mounted
  exact barred.elim (fun other => other mounted) (Nat.not_le.2 room)

end

/-! ### What the Reel Table answers to UNMOUNT REEL and RETIRE REEL (R20, R21) -/

section

variable {ps : Buffer} {s : State}

theorem unmountReel_badHandle (bad : ∀ h : Handle, byteAt ps 0 = h.val → s.reel h = none) :
    unmountReel ps s = refuse s .badHandle :=
  withHandle_bad bad

theorem retireReel_badHandle (bad : ∀ h : Handle, byteAt ps 0 = h.val → s.reel h = none) :
    retireReel ps s = refuse s .badHandle :=
  withHandle_bad bad

variable {h : Handle} {r : Reel} (named : byteAt ps 0 = h.val) (held : s.reel h = some r)
include named held

theorem unmountReel_wrongState (state : r.state = .staged ∨ r.state = .running) :
    unmountReel ps s = refuse s .wrongState := by
  rw [unmountReel, withHandle_ok h r named held]
  rcases state with state | state
  · simp only [state]
  · simp only [state]

theorem unmountReel_inSplice (state : r.state = .prepared) (lock : r.lock = true) : unmountReel ps s = refuse s .inSplice := by
  simp only [unmountReel, withHandle_ok h r named held, state, if_pos lock]

theorem unmountReel_mounted (state : r.state = .mounted) :
    unmountReel ps s =
      done (s.setReel h (some { r with state := .staged, place := none })) [BitVec.ofNat 8 h.val, 0] := by
  simp only [unmountReel, withHandle_ok h r named held, state, byteOf, reelStateCode]

theorem unmountReel_butt (state : r.state = .butt) :
    unmountReel ps s = done (s.setReel h none) [BitVec.ofNat 8 h.val, 0xFF] := by
  simp only [unmountReel, withHandle_ok h r named held, state, byteOf, reelStateByte]

theorem unmountReel_prepared (state : r.state = .prepared) (unlocked : r.lock = false) {place : Place}
    (placed : r.place = some place) :
    unmountReel ps s =
      done ((s.setReel h (some { r with state := .staged, place := none })).leaveByCommand place.stand h)
        [BitVec.ofNat 8 h.val, 0] := by
  simp only [unmountReel, withHandle_ok h r named held, state, unlocked, placed, State.leaveItsQueue, byteOf, reelStateCode]
  rfl

theorem retireReel_wrongState (state : r.state = .running) : retireReel ps s = refuse s .wrongState := by
  simp only [retireReel, withHandle_ok h r named held, state]

theorem retireReel_inSplice (state : r.state = .prepared) (lock : r.lock = true) : retireReel ps s = refuse s .inSplice := by
  simp only [retireReel, withHandle_ok h r named held, state, if_pos lock]

theorem retireReel_done (state : r.state = .staged ∨ r.state = .mounted ∨ r.state = .butt) :
    retireReel ps s = done (s.setReel h none) (BitVec.ofNat 8 h.val :: leBytes 4 r.tag) := by
  rw [retireReel, withHandle_ok h r named held]
  rcases state with state | state | state
  · simp only [state, byteOf]
  · simp only [state, byteOf]
  · simp only [state, byteOf]

theorem retireReel_prepared (state : r.state = .prepared) (unlocked : r.lock = false) {place : Place}
    (placed : r.place = some place) :
    retireReel ps s =
      done ((s.setReel h none).leaveByCommand place.stand h) (BitVec.ofNat 8 h.val :: leBytes 4 r.tag) := by
  simp only [retireReel, withHandle_ok h r named held, state, unlocked, placed, State.leaveItsQueue, byteOf]
  rfl

end

end Sys2Proof.Machine

namespace Sys2Proof.Statements

open Sys2Proof.Machine Sys2Proof.Safety

/-! ### The rows that decisions follow -/

/-- The taking of a command whose owning block leaves `u`: the decisions it prompts follow, and the answer goes to the port
(R175, R121). -/
theorem take_answered {c : Command} {ps : Buffer} {position : Nat} {s : State} (offered : Offered c ps position s)
    {act : Buffer → State → Taken} {u : State} {r : Result} {reply : List Byte}
    (acts : act ps (taken s position) = ⟨u, ⟨r, reply⟩⟩) :
    (.next (commandRow c act (.take position) s) : Host.Outcome State Fault Refusal) = .next (answered u r reply) :=
  congrArg Host.Outcome.next <| calc commandRow c act (.take position) s
    _ = answered (act ps (taken s position)).state (act ps (taken s position)).answer.result
          (act ps (taken s position)).answer.reply := takeHanded_ok offered.ready offered.handed offered.first
    _ = answered u r reply := by rw [acts]

/-- The expiry of a settling timer with its input at the level: the level settles, the event follows, and the decisions it
prompts after it (R184, R121). -/
theorem atEvent_settling {n : StandNo} {k : KeyInput} {level : Bool} {s : State} (settling : Settling n k level s)
    (event : State → State) :
    atEvent (fun s => s.atSettling n k level event) s = (event (settledAt s n k level)).settleDecisions := by
  have settles : s.atSettling n k level event = event (settledAt s n k level) := if_pos ⟨settling.timer, settling.input⟩
  exact (State.atEvent_ready _ s settling.ready).trans (congrArg State.settleDecisions settles)

/-- Settles O35: the state and place of the record and the room in the queue, for the command; what the arm holds, for the
key. -/
theorem prepareReelAndLoadDoneOfferTheReel : Obligations.PrepareReelAndLoadDoneOfferTheReel := by
  refine ⟨?command, fun ps position s offered owes h r named held unplaced => ?unplaced, ?key⟩
  case unplaced =>
    exact take_unchanged offered owes (prepareReel_unplaced (s := taken s position) named held unplaced)
  case command =>
    intro ps position s offered run
    refine ⟨fun owes bad => take_unchanged offered owes (prepareReel_badHandle bad), ?_⟩
    intro h r place named held placed n queue mayOffer
    refine ⟨fun owes bad => ?wrongState, fun owes may full => ?queueFull, fun may room => ?done⟩
    case wrongState =>
      exact take_unchanged offered owes (prepareReel_wrongState (s := taken s position) named held placed bad)
    case queueFull =>
      exact take_unchanged offered owes (prepareReel_queueFull (s := taken s position) named held placed may full)
    case done =>
      intro u
      refine ⟨byteOf (queuePosition (u.stand n).queue h),
        take_answered offered (prepareReel_done (s := taken s position) named held placed may room),
        fun head => ?_, fun head second => ?_, fun out => ?_⟩
      · rw [queuePosition_head head]; rfl
      · rw [queuePosition_second head second]; rfl
      · rw [queuePosition_of_not_mem out]; rfl
  case key =>
    intro n arm s settling distinct u run
    have pressed : run = .next (u.pressLoadDone n arm).settleDecisions :=
      congrArg Host.Outcome.next (atEvent_settling settling fun s => s.pressLoadDone n arm)
    rw [pressed]
    refine ⟨fun empty => ?unregistered, fun h r held place => ?holder⟩
    case unregistered =>
      rw [State.pressLoadDone_unregistered ((u.armHolds_eq_none_iff n arm).2 empty)]
    case holder =>
      have holds : u.armHolds n arm = some h := State.armHolds_of_place (s := u) distinct held place
      refine ⟨fun mounted room => ?_, fun barred => ?_⟩
      · rw [State.pressLoadDone_offers (s := u) holds held mounted room]
      · rw [State.pressLoadDone_nothing (s := u) holds held barred]

/-- Settles O36: the state and the lock of the record, for the one command and for the other. -/
theorem unmountReelAndRetireReelTakeTheReel : Obligations.UnmountReelAndRetireReelTakeTheReel := by
  intro ps position s retire offered owes run
  cases retire with
  | false =>
    refine ⟨fun bad => take_unchanged offered owes (unmountReel_badHandle bad), ?_⟩
    intro h r named held staged removed tag
    refine ⟨fun running => ?uRunning, fun state lock => ?uLocked, fun _ state => ?uStaged, fun _ state => ?uMounted,
      fun _ state => ?uButt, nofun, fun place state unlocked placed => ⟨fun _ => ?uPrepared, nofun⟩⟩
    case uRunning =>
      exact take_unchanged offered owes (unmountReel_wrongState (s := taken s position) named held (.inr running))
    case uLocked =>
      exact take_unchanged offered owes (unmountReel_inSplice (s := taken s position) named held state lock)
    case uStaged =>
      exact take_unchanged offered owes (unmountReel_wrongState (s := taken s position) named held (.inl state))
    case uMounted => exact take_setReel offered owes (unmountReel_mounted (s := taken s position) named held state)
    case uButt => exact take_setReel offered owes (unmountReel_butt (s := taken s position) named held state)
    case uPrepared =>
      exact take_answered offered (unmountReel_prepared (s := taken s position) named held state unlocked placed)
  | true =>
    refine ⟨fun bad => take_unchanged offered owes (retireReel_badHandle bad), ?_⟩
    intro h r named held staged removed tag
    refine ⟨fun running => ?rRunning, fun state lock => ?rLocked, nofun, nofun, nofun, fun _ state => ?rDone,
      fun place state unlocked placed => ⟨nofun, fun _ => ?rPrepared⟩⟩
    case rRunning =>
      exact take_unchanged offered owes (retireReel_wrongState (s := taken s position) named held running)
    case rLocked =>
      exact take_unchanged offered owes (retireReel_inSplice (s := taken s position) named held state lock)
    case rDone => exact take_setReel offered owes (retireReel_done (s := taken s position) named held state)
    case rPrepared =>
      exact take_answered offered (retireReel_prepared (s := taken s position) named held state unlocked placed)

end Sys2Proof.Statements
end

section
/-! PROOFS. STAND ENABLE, STAND DISABLE and STAND RESET (R51, R97 to R101, R169, R188): what the stand does in each group of its
states, and the rows that take the commands. -/

namespace Sys2Proof.Machine

/-! ### Entry to OFF and return from it (R51, R98) -/

namespace State

/-- The web of an OFF stand is not watched: what is left after the request and the watch have ended (R98, R51). -/
def quieted (s : State) (n : StandNo) : State := (s.withdrawIfWaiting n).stopWatcher n

theorem enterOff_of_empty {s : State} {n : StandNo} (empty : (s.stand n).running = none) :
    s.enterOff n = (s.quieted n).modStand n fun st => { st with state := .off, level := none, backoffTimer := none } := by
  simp only [enterOff, empty]
  rfl

theorem enterOff_of_running {s : State} {n : StandNo} {h : Handle} (running : (s.stand n).running = some h) :
    s.enterOff n =
      ((s.quieted n).modReel h fun r => { r with stale := true }).modStand n fun st =>
        { st with state := .off, level := none, backoffTimer := none } := by
  simp only [enterOff, running]
  rfl

theorem enterOff_state (s : State) (n : StandNo) : ((s.enterOff n).stand n).state = .off := by
  rw [enterOff, modStand_stand_self]

theorem resumeMeasurement_of_empty {s : State} {n : StandNo} (empty : (s.stand n).running = none) :
    s.resumeMeasurement n = s := by
  simp only [resumeMeasurement, empty]

theorem resumeMeasurement_of_running {s : State} {n : StandNo} {h : Handle} (running : (s.stand n).running = some h) :
    s.resumeMeasurement n = (s.modReel h fun r => { r with stale := false }).startWatcher n := by
  simp only [resumeMeasurement, running]

theorem disable_beforePaste {s : State} {n : StandNo} (before : beforePaste (s.stand n).state = true) :
    s.disable n = (s.abandon n .disable).enterOff n :=
  if_pos before

theorem disable_of_not_beforePaste {s : State} {n : StandNo} (other : beforePaste (s.stand n).state = false) :
    s.disable n = s.enterOff n :=
  if_neg (Bool.eq_false_iff.1 other)

end State

/-! ### What the stand answers to STAND DISABLE (R97) -/

section

variable {ps : Buffer} {s : State}

theorem standDisable_badStand (bad : 12 ≤ byteAt ps 0) : standDisable ps s = refuse s .badStand :=
  withStand_bad bad

variable {n : StandNo} (named : byteAt ps 0 = n.val)
include named

theorem standDisable_off (state : (s.stand n).state = .off) : standDisable ps s = done s [0] := by
  simp only [standDisable, withStand_ok n named, state, doneWithState, standStateCode]

/-- Past the paste the disable is deferred (R102). -/
theorem standDisable_deferred (state : (s.stand n).state = .cut ∨ (s.stand n).state = .settle) :
    standDisable ps s =
      ⟨s.modStand n fun st => { st with deferredDisable := true }, ⟨.deferred, [standStateCode (s.stand n).state]⟩⟩ := by
  rcases state with state | state <;>
    simp only [standDisable, withStand_ok n named, state, State.modStand_stand_self]

theorem standDisable_beforePaste (state : (s.stand n).state = .runUp ∨ (s.stand n).state = .paste) :
    standDisable ps s = doneWithState (((s.abandon n .disable).enterOff n).applyDeferredProfile n) n := by
  have before : beforePaste (s.stand n).state = true := by rcases state with state | state <;> rw [state] <;> rfl
  rw [standDisable, withStand_ok n named, ← State.disable_beforePaste before]
  rcases state with state | state <;> simp only [state]

theorem standDisable_quiet (outside : splicing (s.stand n).state = false) (on : (s.stand n).state ≠ .off) :
    standDisable ps s = done (s.enterOff n) [0] := by
  have code : standStateCode ((s.enterOff n).stand n).state = 0 := congrArg standStateCode (s.enterOff_state n)
  rw [← code, standDisable, withStand_ok n named,
    ← State.disable_of_not_beforePaste (Bool.or_eq_false_iff.1 outside).1]
  cases state : (s.stand n).state with
  | off => exact absurd state on
  | idle | running | waiting | backoff | held | locked => rfl
  | runUp | paste | cut | settle => rw [state] at outside; exact nomatch outside

end

/-! ### What the stand answers to STAND ENABLE (R99, R188) -/

/-- Every level that OUTPUT has set is released (R188). -/
theorem State.releaseMaintenance_eq (s : State) (n : StandNo) :
    s.releaseMaintenance n = s.modOutputs n fun o =>
      { o with
        drive := if o.driveMaintained then false else o.drive
        brake := if o.brakeMaintained then false else o.brake
        driveMaintained := false
        brakeMaintained := false } := by
  have level (on maintained : Bool) : (on && !maintained) = if maintained then false else on := by
    cases maintained
    · exact Bool.and_true on
    · exact Bool.and_false on
  simp only [releaseMaintenance, level]

section

variable {ps : Buffer} {s : State}

theorem standEnable_badStand (bad : 12 ≤ byteAt ps 0) : standEnable ps s = refuse s .badStand :=
  withStand_bad bad

variable {n : StandNo} (named : byteAt ps 0 = n.val)
include named

theorem standEnable_on (on : (s.stand n).state ≠ .off) (notCut : (s.stand n).state ≠ .cut)
    (notSettle : (s.stand n).state ≠ .settle) : standEnable ps s = done s [standStateCode (s.stand n).state] := by
  rw [standEnable, withStand_ok n named]
  cases state : (s.stand n).state with
  | off => exact absurd state on
  | cut => exact absurd state notCut
  | settle => exact absurd state notSettle
  | idle | running | waiting | backoff | held | locked | runUp | paste => simp only [doneWithState, state]

/-- Past the paste it takes back a deferred disable. -/
theorem standEnable_afterPaste (state : (s.stand n).state = .cut ∨ (s.stand n).state = .settle) :
    standEnable ps s =
      done (s.modStand n fun st => { st with deferredDisable := false }) [standStateCode (s.stand n).state] := by
  rcases state with state | state <;>
    simp only [standEnable, withStand_ok n named, state, doneWithState, State.modStand_stand_self]

theorem standEnable_off (state : (s.stand n).state = .off) : standEnable ps s = doneWithState (s.enable n) n := by
  simp only [standEnable, withStand_ok n named, state]

end

namespace State

section

variable {s : State} {n : StandNo}

theorem enable_locked (lock : (s.stand n).lock = true) :
    s.enable n = ((s.releaseMaintenance n).resumeMeasurement n).modStand n fun st => { st with state := .locked } :=
  if_pos lock

variable (unlocked : (s.stand n).lock = false)
include unlocked

theorem enable_held (hold : (s.stand n).hold = true) (running : (s.stand n).running ≠ none) :
    s.enable n = ((s.releaseMaintenance n).resumeMeasurement n).modStand n fun st => { st with state := .held } := by
  have both : (s.stand n).hold = true ∧ (s.stand n).running.isSome = true := ⟨hold, Option.isSome_iff_ne_none.2 running⟩
  exact (if_neg (Bool.eq_false_iff.1 unlocked)).trans (if_pos both)

theorem enable_running (free : (s.stand n).hold = false) (running : (s.stand n).running ≠ none) :
    s.enable n = ((s.releaseMaintenance n).resumeMeasurement n).enterRunning n := by
  have notHeld : ¬((s.stand n).hold = true ∧ (s.stand n).running.isSome = true) := fun both => by simp [free] at both
  exact (if_neg (Bool.eq_false_iff.1 unlocked)).trans
    ((if_neg notHeld).trans (if_pos (Option.isSome_iff_ne_none.2 running)))

theorem enable_idle (empty : (s.stand n).running = none) :
    s.enable n = ((s.releaseMaintenance n).resumeMeasurement n).modStand n fun st => { st with state := .idle } := by
  have none : ¬(s.stand n).running.isSome = true := fun some => Option.isSome_iff_ne_none.1 some empty
  exact (if_neg (Bool.eq_false_iff.1 unlocked)).trans ((if_neg fun both => none both.2).trans (if_neg none))

end

/-! ### The reset effects (R101) -/

/-- The state in which a reset has ended a stand's request, its marks, its flags and its backoff (R101). -/
def resetCleared (s : State) (n : StandNo) : State :=
  ((s.withdrawIfWaiting n).clearMarks (s.pathOf n) n).modStand n fun st =>
    { st with hold := false, lock := false, stall := false, backoffTimer := none, level := none }

section

variable {s : State} {n : StandNo}

theorem resetEffects_off (off : (s.stand n).state = .off) : s.resetEffects n = s.resetCleared n :=
  if_pos off

theorem resetEffects_running (on : (s.stand n).state ≠ .off) (running : (s.stand n).running ≠ none) :
    s.resetEffects n = (s.resetCleared n).enterRunning n :=
  (if_neg on).trans (if_pos (Option.isSome_iff_ne_none.2 running))

theorem resetEffects_idle (on : (s.stand n).state ≠ .off) (empty : (s.stand n).running = none) :
    s.resetEffects n = (s.resetCleared n).modStand n fun st => { st with state := .idle } :=
  (if_neg on).trans (if_neg fun some => Option.isSome_iff_ne_none.1 some empty)

theorem resetStand_beforePaste (before : beforePaste (s.stand n).state = true) :
    s.resetStand n = (s.abandon n .reset).resetEffects n :=
  if_pos before

theorem resetStand_of_not_beforePaste (other : beforePaste (s.stand n).state = false) : s.resetStand n = s.resetEffects n :=
  if_neg (Bool.eq_false_iff.1 other)

end

end State

/-! ### What the stand answers to STAND RESET (R100, R169) -/

section

variable {ps : Buffer} {s : State}

theorem standReset_badStand (bad : 12 ≤ byteAt ps 0) : standReset ps s = refuse s .badStand :=
  withStand_bad bad

variable {n : StandNo} (named : byteAt ps 0 = n.val)
include named

theorem standReset_deferred (state : (s.stand n).state = .cut ∨ (s.stand n).state = .settle) :
    standReset ps s =
      ⟨(s.removeStandNotices n).modStand n fun st => { st with deferredReset := true },
        ⟨.deferred, [standStateCode (s.stand n).state]⟩⟩ := by
  have kept : (s.removeStandNotices n).stand n = s.stand n := rfl
  rcases state with state | state <;>
    simp only [standReset, withStand_ok n named, State.modStand_stand_self, kept, state]

theorem standReset_beforePaste (state : (s.stand n).state = .runUp ∨ (s.stand n).state = .paste) :
    standReset ps s =
      doneWithState ((((s.removeStandNotices n).abandon n .reset).resetEffects n).applyDeferredProfile n) n := by
  have before : beforePaste ((s.removeStandNotices n).stand n).state = true := by
    change beforePaste (s.stand n).state = true
    rcases state with state | state <;> rw [state] <;> rfl
  rw [standReset, withStand_ok n named, ← State.resetStand_beforePaste before]
  rcases state with state | state <;> simp only [state]

theorem standReset_quiet (outside : splicing (s.stand n).state = false) :
    standReset ps s = doneWithState ((s.removeStandNotices n).resetEffects n) n := by
  have other : beforePaste ((s.removeStandNotices n).stand n).state = false := (Bool.or_eq_false_iff.1 outside).1
  rw [standReset, withStand_ok n named, ← State.resetStand_of_not_beforePaste other]
  cases state : (s.stand n).state with
  | off | idle | running | waiting | backoff | held | locked => rfl
  | runUp | paste | cut | settle => rw [state] at outside; exact nomatch outside

end

end Sys2Proof.Machine

namespace Sys2Proof.Statements

open Sys2Proof.Machine Sys2Proof.Safety

/-- The taking of a command that changes a stand and prompts no decision. -/
theorem take_modStand {c : Command} {ps : Buffer} {position : Nat} {s : State} (offered : Offered c ps position s)
    (owes : NoDecisionOwed s) {act : Buffer → State → Taken} {n : StandNo} {f : Stand → Stand} {r : Result}
    {reply : List Byte} (acts : act ps (taken s position) = ⟨(taken s position).modStand n f, ⟨r, reply⟩⟩) :
    (.next (commandRow c act (.take position) s) : Host.Outcome State Fault Refusal) =
      .next (replied (s.modStand n f) position r reply) :=
  congrArg _ (commandRow_take (u := s.modStand n f) offered owes acts)

/-- Settles O39: the state of the stand for the two commands, the running reel for the entry to OFF and the return. -/
theorem standDisableAndEnableActByState : Obligations.StandDisableAndEnableActByState := by
  refine ⟨?byState, fun c ps position s which offered owes bad => ?badStand, fun s n => ?entry⟩
  case badStand =>
    rcases which with rfl | rfl
    · exact take_unchanged offered owes (standDisable_badStand bad)
    · exact take_unchanged offered owes (standEnable_badStand bad)
  case entry =>
    exact ⟨fun empty => ⟨State.enterOff_of_empty empty, State.resumeMeasurement_of_empty empty⟩,
      fun h running => ⟨State.enterOff_of_running running, State.resumeMeasurement_of_running running⟩⟩
  case byState =>
    intro ps position s n named st
    refine ⟨fun offered => ?disable, fun offered => ?enable⟩
    case disable =>
      have deferred (owes : NoDecisionOwed s) (state : st.state = .cut ∨ st.state = .settle) :
          exec (.standDisable (.take position)) s =
            .next (replied (s.modStand n fun st => { st with deferredDisable := true }) position .deferred
              [standStateCode st.state]) :=
        take_modStand offered owes (standDisable_deferred (s := taken s position) named state)
      refine ⟨fun owes off => ?off, fun owes cut => ?cut, fun owes settle => ?settle, fun before => ?before,
        fun outside on => ?outside⟩
      case off => exact take_unchanged offered owes (standDisable_off (s := taken s position) named off)
      case cut => exact (deferred owes (.inl cut)).trans (by rw [cut]; rfl)
      case settle => exact (deferred owes (.inr settle)).trans (by rw [settle]; rfl)
      case before => exact take_answered offered (standDisable_beforePaste (s := taken s position) named before)
      case outside => exact take_answered offered (standDisable_quiet (s := taken s position) named outside on)
    case enable =>
      intro run released resumed
      have release : (taken s position).releaseMaintenance n = released := State.releaseMaintenance_eq _ _
      have enabled {u : State} {code : Byte} (state : st.state = .off)
          (enables : (taken s position).enable n = u) (left : standStateCode (u.stand n).state = code) :
          run = .next (answered u .done [code]) := by
        refine take_answered offered ((standEnable_off (s := taken s position) named state).trans ?_)
        rw [doneWithState, enables, left]
        rfl
      have entered (f : Stand → Stand) {state : StandState} (gives : ∀ st, (f st).state = state) :
          standStateCode ((resumed.modStand n f).stand n).state = standStateCode state := by
        rw [State.modStand_stand_self, gives]
      refine ⟨fun owes on notCut notSettle => ?on, fun owes after => ?after, fun off =>
        ⟨fun lock => ?locked, fun unlocked hold running => ?held, fun unlocked free running => ?running,
          fun unlocked empty => ?idle⟩⟩
      case on => exact take_unchanged offered owes (standEnable_on (s := taken s position) named on notCut notSettle)
      case after => exact take_modStand offered owes (standEnable_afterPaste (s := taken s position) named after)
      case locked =>
        exact enabled off ((State.enable_locked (s := taken s position) lock).trans (by rw [release]))
          (entered _ fun _ => rfl)
      case held =>
        exact enabled off ((State.enable_held (s := taken s position) unlocked hold running).trans (by rw [release]))
          (entered _ fun _ => rfl)
      case running =>
        exact enabled off ((State.enable_running (s := taken s position) unlocked free running).trans (by rw [release])) rfl
      case idle =>
        exact enabled off ((State.enable_idle (s := taken s position) unlocked empty).trans (by rw [release]))
          (entered _ fun _ => rfl)

/-- Settles O40: the state of the stand for the command, the state and the running reel for the reset effects. -/
theorem standResetActsByState : Obligations.StandResetActsByState := by
  refine ⟨fun ps position s offered owes bad => take_unchanged offered owes (standReset_badStand bad), ?byState,
    fun s n => ⟨State.resetEffects_off, State.resetEffects_running, State.resetEffects_idle⟩⟩
  case byState =>
    intro ps position s n offered named run st quiet abandoned
    exact ⟨fun after => take_answered offered (standReset_deferred (s := taken s position) named after),
      fun before => take_answered offered (standReset_beforePaste (s := taken s position) named before),
      fun outside => take_answered offered (standReset_quiet (s := taken s position) named outside)⟩

end Sys2Proof.Statements
end

section
/-! PROOFS. THREAD REEL (R87, R88) and HOLD, RELEASE and the HOLD key (R94 to R96). -/

namespace Sys2Proof.Machine

/-! ### THREAD REEL -/

theorem mayThread_iff (st : Stand) :
    mayThread st = true ↔ st.state = .idle ∨ st.state = .held ∧ (st.running = none ∨ st.webBroken = true) := by
  cases state : st.state <;> simp [mayThread, state]

/-- A record lies on a stand exactly when its place is an arm of it (R6). -/
theorem place_on_iff (r : Reel) (n : StandNo) : r.place.map (·.stand) = some n ↔ ∃ arm, r.place = some ⟨n, arm⟩ := by
  simp only [Option.map_eq_some_iff]
  constructor
  · rintro ⟨⟨stand, arm⟩, placed, rfl⟩
    exact ⟨arm, placed⟩
  · rintro ⟨arm, placed⟩
    exact ⟨_, placed, rfl⟩

/-- The reel that THREAD REEL names may become the stand's running reel (R87). -/
def Threadable (n : StandNo) (r : Reel) : Prop :=
  (r.state = .mounted ∨ r.state = .prepared) ∧ ∃ arm, r.place = some ⟨n, arm⟩

theorem threadable_iff (n : StandNo) (r : Reel) :
    (r.state = .mounted ∨ r.state = .prepared) ∧ r.place.map (·.stand) = some n ↔ Threadable n r := by
  rw [place_on_iff, Threadable]

section

variable {ps : Buffer} {s : State}

theorem threadReel_badHandle (bad : ∀ h : Handle, byteAt ps 1 = h.val → s.reel h = none) :
    threadReel ps s = refuse s .badHandle :=
  withHandle_bad bad

variable {h : Handle} {r : Reel} (reel : byteAt ps 1 = h.val) (held : s.reel h = some r)
include reel held

theorem threadReel_badStand (bad : 12 ≤ byteAt ps 0) : threadReel ps s = refuse s .badStand := by
  rw [threadReel, withHandle_ok h r reel held, withStand_bad bad]

variable {n : StandNo} (named : byteAt ps 0 = n.val)
include named

theorem threadReel_wrongState (bad : ¬mayThread (s.stand n) = true ∨ ¬Threadable n r) :
    threadReel ps s = refuse s .wrongState := by
  rw [threadReel, withHandle_ok h r reel held, withStand_ok n named]
  rcases bad with occupied | other
  · exact if_pos (Bool.eq_false_iff.2 occupied)
  · by_cases may : mayThread (s.stand n) = false
    · exact if_pos may
    · exact (if_neg may).trans (if_pos (mt (threadable_iff n r).1 other))

variable (free : mayThread (s.stand n) = true) (mine : Threadable n r)
include free mine

theorem threadReel_pathMoving (moving : (s.web (s.pathOf n)).moving = true) :
    threadReel ps s = refuse s .pathMoving := by
  rw [threadReel, withHandle_ok h r reel held, withStand_ok n named, if_neg (by simp [free]),
    if_neg (not_not_intro ((threadable_iff n r).2 mine)), if_pos moving]

theorem threadReel_done (still : (s.web (s.pathOf n)).moving = false) :
    threadReel ps s =
      done (s.threadOn n h)
        [standStateCode ((s.threadOn n h).stand n).state, handleByte ((s.threadOn n h).stand n).running] := by
  rw [threadReel, withHandle_ok h r reel held, withStand_ok n named, if_neg (by simp [free]),
    if_neg (not_not_intro ((threadable_iff n r).2 mine)), if_neg (Bool.eq_false_iff.1 still)]

end

/-- The reel leaves the queue and becomes the running reel in one change of the stand. -/
theorem State.threadOn_eq (s : State) (n : StandNo) (h : Handle) :
    s.threadOn n h =
      let running :=
        (((s.endRunningReel n).becomeRunning h none).modStand n fun st =>
          { st with queue := st.queue.filter (· != h), running := some h }).startWatcher n
      if (s.stand n).hold then (running.testFlags n).modStand n fun st => { st with state := .held }
      else (running.testFlags n).enterRunning n := by
  rw [threadOn, leaveQueue, modStand_modStand]

/-! ### HOLD and RELEASE -/

namespace State

/-- The halt of a stand: it is HELD, and neither waits nor backs off (R95). -/
def halted (st : Stand) : Stand := { st with state := .held, level := none, backoffTimer := none }

theorem withdrawIfWaiting_of_waiting {s : State} {n : StandNo} (waiting : (s.stand n).state = .waiting) :
    s.withdrawIfWaiting n = s.withdrawRequest (s.pathOf n) n :=
  if_pos waiting

theorem withdrawIfWaiting_of_not {s : State} {n : StandNo} (other : (s.stand n).state ≠ .waiting) :
    s.withdrawIfWaiting n = s :=
  if_neg other

theorem enterHeld_of_not_waiting {s : State} {n : StandNo} (other : (s.stand n).state ≠ .waiting) :
    s.enterHeld n = s.modStand n halted := by
  rw [enterHeld, withdrawIfWaiting_of_not other]
  rfl

/-- An abandonment leaves the state of the stand to its caller (R92). -/
theorem abandon_state (s : State) (n : StandNo) (reason : Reason) :
    ((s.abandon n reason).stand n).state = (s.stand n).state := by
  rw [abandon]
  split
  · rfl
  · rw [modStand_stand_self]
    split <;> rfl

/-- The stand with its hold flag set. -/
def withHold (s : State) (n : StandNo) (level : Bool) : State := s.modStand n fun st => { st with hold := level }

theorem withHold_state (s : State) (n : StandNo) (level : Bool) : ((s.withHold n level).stand n).state = (s.stand n).state := by
  rw [withHold, modStand_stand_self]

section

variable {s : State} {n : StandNo}

theorem setHold_halts (state : (s.stand n).state = .running ∨ (s.stand n).state = .backoff) :
    s.setHold n = (s.withHold n true).modStand n halted := by
  have other : ((s.withHold n true).stand n).state ≠ .waiting := by
    rw [withHold_state]
    rcases state with state | state <;> rw [state] <;> exact nofun
  rw [← enterHeld_of_not_waiting other]
  rcases state with state | state <;> simp only [setHold, state] <;> rfl

theorem setHold_waiting (state : (s.stand n).state = .waiting) :
    s.setHold n = ((s.withHold n true).withdrawRequest (s.pathOf n) n).modStand n halted := by
  have waiting : ((s.withHold n true).stand n).state = .waiting := (s.withHold_state n true).trans state
  have enters : s.setHold n = (s.withHold n true).enterHeld n := by
    simp only [setHold, state]
    rfl
  rw [enters, enterHeld, withdrawIfWaiting_of_waiting waiting]
  rfl

theorem setHold_beforePaste (state : (s.stand n).state = .runUp ∨ (s.stand n).state = .paste) :
    s.setHold n = (((s.withHold n true).abandon n .hold).modStand n halted).applyDeferredProfile n := by
  have other : (((s.withHold n true).abandon n .hold).stand n).state ≠ .waiting := by
    rw [abandon_state, withHold_state]
    rcases state with state | state <;> rw [state] <;> exact nofun
  rw [← enterHeld_of_not_waiting other]
  rcases state with state | state <;> simp only [setHold, state] <;> rfl

theorem setHold_marks (state : (s.stand n).state = .cut ∨ (s.stand n).state = .settle ∨ (s.stand n).state = .idle ∨
    (s.stand n).state = .held ∨ (s.stand n).state = .locked ∨ (s.stand n).state = .off) :
    s.setHold n = s.withHold n true := by
  rcases state with state | state | state | state | state | state <;> simp only [setHold, state] <;> rfl

theorem clearHold_of_not_held (other : (s.stand n).state ≠ .held) : s.clearHold n = s.withHold n false :=
  if_neg other

theorem clearHold_running (held : (s.stand n).state = .held) (running : (s.stand n).running ≠ none) :
    s.clearHold n = (s.withHold n false).enterRunning n :=
  (if_pos held).trans (if_pos (Option.isSome_iff_ne_none.2 running))

theorem clearHold_idle (held : (s.stand n).state = .held) (empty : (s.stand n).running = none) :
    s.clearHold n = (s.withHold n false).modStand n fun st => { st with state := .idle } :=
  (if_pos held).trans (if_neg fun some => Option.isSome_iff_ne_none.1 some empty)

end

end State

section

variable {ps : Buffer} {s : State}

theorem hold_badStand (bad : 12 ≤ byteAt ps 0) : hold ps s = refuse s .badStand :=
  withStand_bad bad

theorem release_badStand (bad : 12 ≤ byteAt ps 0) : release ps s = refuse s .badStand :=
  withStand_bad bad

variable {n : StandNo} (named : byteAt ps 0 = n.val)
include named

theorem hold_held (held : (s.stand n).hold = true) : hold ps s = done s [standStateCode (s.stand n).state, 1] := by
  rw [hold, withStand_ok n named, if_pos held, doneWithHold, held]
  rfl

theorem hold_free (free : (s.stand n).hold = false) : hold ps s = doneWithHold (s.setHold n) n := by
  rw [hold, withStand_ok n named, if_neg (Bool.eq_false_iff.1 free)]

theorem release_free (free : (s.stand n).hold = false) : release ps s = done s [standStateCode (s.stand n).state, 0] := by
  rw [release, withStand_ok n named, if_neg (Bool.eq_false_iff.1 free), doneWithHold, free]
  rfl

theorem release_held (held : (s.stand n).hold = true) : release ps s = doneWithHold (s.clearHold n) n := by
  rw [release, withStand_ok n named, if_pos held]

end

end Sys2Proof.Machine

namespace Sys2Proof.Statements

open Sys2Proof.Machine Sys2Proof.Safety

/-- Settles O41: the checks of THREAD REEL in their order, and the state that it leaves. -/
theorem threadReelMakesTheRunningReel : Obligations.ThreadReelMakesTheRunningReel := by
  refine ⟨fun ps position s offered owes => ⟨fun bad => take_unchanged offered owes (threadReel_badHandle bad),
    fun h r reel held => ⟨fun bad => ?badStand, ?checks⟩⟩, ?done⟩
  case badStand => exact take_unchanged offered owes (threadReel_badStand (s := taken s position) reel held bad)
  case checks =>
    intro n named st free mine
    have free_iff : mayThread (s.stand n) = true ↔ free := mayThread_iff _
    refine ⟨fun bad => ?_, fun may threadable moving => ?_⟩
    · exact take_unchanged offered owes (threadReel_wrongState (s := taken s position) reel held named
        (bad.imp_left (mt free_iff.1)))
    · exact take_unchanged offered owes (threadReel_pathMoving (s := taken s position) reel held named (free_iff.2 may)
        threadable moving)
  case done =>
    intro ps position s h r n arm offered reel held named free state place still running threaded
    have threads : (taken s position).threadOn n h = threaded := State.threadOn_eq _ _ _
    have acts := threadReel_done (s := taken s position) reel held named ((mayThread_iff _).2 free) ⟨state, arm, place⟩ still
    rw [threads] at acts
    exact take_answered offered acts

/-- Settles O42: the hold flag for the commands and the key, the state of the stand for what a change of it does. -/
theorem holdAndReleaseActByState : Obligations.HoldAndReleaseActByState := by
  refine ⟨fun c ps position s which offered owes bad => ?badStand, ?commands, fun n s settling => ?key, fun s n => ?byState⟩
  case badStand =>
    rcases which with rfl | rfl
    · exact take_unchanged offered owes (hold_badStand bad)
    · exact take_unchanged offered owes (release_badStand bad)
  case commands =>
    intro ps position s n named st held freed
    exact ⟨fun offered =>
        ⟨fun owes hold => take_unchanged offered owes (hold_held (s := taken s position) named hold),
          fun free => take_answered offered (hold_free (s := taken s position) named free)⟩,
      fun offered =>
        ⟨fun owes free => take_unchanged offered owes (release_free (s := taken s position) named free),
          fun hold => take_answered offered (release_held (s := taken s position) named hold)⟩⟩
  case key => exact congrArg Host.Outcome.next (atEvent_settling settling fun s => s.pressHold n)
  case byState =>
    exact ⟨State.setHold_halts, State.setHold_waiting, fun state _ => State.setHold_beforePaste state, State.setHold_marks,
      State.clearHold_of_not_held, State.clearHold_running, State.clearHold_idle⟩

end Sys2Proof.Statements
end

section
/-! PROOFS. SPLICE SOON, SPLICE NOW and the SPLICE key (R68 to R70). -/

namespace Sys2Proof.Machine

/-! ### The refusals (R68) -/

theorem spliceRefusal_empty {st : Stand} (empty : st.queue = []) : spliceRefusal st = some .noCandidate :=
  if_pos empty

section

variable {st : Stand} (candidate : st.queue ≠ [])
include candidate

theorem spliceRefusal_splicing (state : splicing st.state = true) : spliceRefusal st = some .inSplice := by
  rw [spliceRefusal, if_neg candidate]
  cases known : st.state with
  | runUp | paste | cut | settle => rfl
  | off | idle | running | waiting | backoff | held | locked => rw [known] at state; exact nomatch state

theorem spliceRefusal_idle (state : st.state = .off ∨ st.state = .idle ∨ st.state = .held ∨ st.state = .locked) :
    spliceRefusal st = some .wrongState := by
  rw [spliceRefusal, if_neg candidate]
  rcases state with state | state | state | state <;> rw [state]

theorem spliceRefusal_none (state : st.state = .running ∨ st.state = .waiting ∨ st.state = .backoff) :
    spliceRefusal st = none := by
  rw [spliceRefusal, if_neg candidate]
  rcases state with state | state | state <;> rw [state]

/-- In every other state a splice command is refused. -/
theorem spliceRefusal_ne_none (state : st.state ≠ .running ∧ st.state ≠ .waiting ∧ st.state ≠ .backoff) :
    spliceRefusal st ≠ none := by
  obtain ⟨running, waiting, backoff⟩ := state
  rw [spliceRefusal, if_neg candidate]
  cases known : st.state with
  | running => exact absurd known running
  | waiting => exact absurd known waiting
  | backoff => exact absurd known backoff
  | runUp | paste | cut | settle | off | idle | held | locked => exact nofun

end

/-! ### What the commands do on a stand that takes them (R68, R69) -/

/-- Only URGENT is the highest level. -/
theorem levelRank_lt_three_iff (l : Option Level) : levelRank l < 3 ↔ l ≠ some .urgent := by
  match l with
  | none | some .early | some .normal | some .urgent => decide

namespace State

section

variable {s : State} {n : StandNo}

theorem spliceSoonOn_running (state : (s.stand n).state = .running) : s.spliceSoonOn n = s.enterWaiting n (some .early) :=
  if_pos state

theorem spliceSoonOn_of_not_running (other : (s.stand n).state ≠ .running) : s.spliceSoonOn n = s :=
  if_neg other

theorem spliceNowOn_running (state : (s.stand n).state = .running) : s.spliceNowOn n = s.enterWaiting n (some .urgent) := by
  rw [spliceNowOn, state]

theorem spliceNowOn_rises (state : (s.stand n).state = .waiting) (level : (s.stand n).level ≠ some .urgent) :
    s.spliceNowOn n =
      (s.modStand n fun st => { st with level := some .urgent }).raiseRequest (s.pathOf n) n (some .urgent) := by
  rw [spliceNowOn, state]
  exact if_pos ((levelRank_lt_three_iff _).2 level)

theorem spliceNowOn_urgent (state : (s.stand n).state = .waiting) (level : (s.stand n).level = some .urgent) :
    s.spliceNowOn n = s := by
  rw [spliceNowOn, state]
  exact if_neg fun lower => (levelRank_lt_three_iff _).1 lower level

theorem spliceNowOn_backoff (state : (s.stand n).state = .backoff) :
    s.spliceNowOn n = s.modStand n fun st => { st with level := some .urgent } := by
  rw [spliceNowOn, state]

end

end State

/-! ### What the stand answers -/

/-- SPLICE NOW or SPLICE SOON taken by the stand. -/
def spliceAsked (now : Bool) : Buffer → State → Taken := if now then spliceNow else spliceSoon

/-- What either does on a stand that takes it. -/
def State.spliceAskedOn (now : Bool) (s : State) (n : StandNo) : State := if now then s.spliceNowOn n else s.spliceSoonOn n

section

variable {now : Bool} {ps : Buffer} {s : State}

theorem spliceAsked_badStand (bad : 12 ≤ byteAt ps 0) : spliceAsked now ps s = refuse s .badStand := by
  cases now with
  | false =>
    change spliceSoon ps s = _
    exact withStand_bad bad
  | true =>
    change spliceNow ps s = _
    exact withStand_bad bad

variable {n : StandNo} (named : byteAt ps 0 = n.val)
include named

theorem spliceAsked_refused {result : Result} (refusal : spliceRefusal (s.stand n) = some result) :
    spliceAsked now ps s = refuse s result := by
  cases now with
  | false =>
    change spliceSoon ps s = _
    rw [spliceSoon, withStand_ok n named, refusal]
  | true =>
    change spliceNow ps s = _
    rw [spliceNow, withStand_ok n named, refusal]

theorem spliceAsked_taken (takes : spliceRefusal (s.stand n) = none) :
    spliceAsked now ps s = doneWithLevel (s.spliceAskedOn now n) n := by
  cases now with
  | false =>
    change spliceSoon ps s = _
    rw [spliceSoon, withStand_ok n named, takes]
    rfl
  | true =>
    change spliceNow ps s = _
    rw [spliceNow, withStand_ok n named, takes]
    rfl

variable (candidate : (s.stand n).queue ≠ [])
include candidate

theorem spliceAsked_running (state : (s.stand n).state = .running) :
    spliceAsked now ps s =
      doneWithLevel (s.enterWaiting n (if now then some .urgent else some .early)) n := by
  rw [spliceAsked_taken named (spliceRefusal_none candidate (.inl state))]
  cases now with
  | false => exact congrArg (doneWithLevel · n) (State.spliceSoonOn_running state)
  | true => exact congrArg (doneWithLevel · n) (State.spliceNowOn_running state)

/-- A waiting stand that SPLICE SOON or a level already URGENT leaves as it is. -/
theorem spliceAsked_waits (state : (s.stand n).state = .waiting) (stays : now = false ∨ (s.stand n).level = some .urgent) :
    spliceAsked now ps s = done s [3, levelCode (s.stand n).level] := by
  have unchanged : s.spliceAskedOn now n = s := by
    rcases stays with rfl | urgent
    · exact State.spliceSoonOn_of_not_running (by rw [state]; exact nofun)
    · cases now with
      | false => exact State.spliceSoonOn_of_not_running (by rw [state]; exact nofun)
      | true => exact State.spliceNowOn_urgent state urgent
  rw [spliceAsked_taken named (spliceRefusal_none candidate (.inr (.inl state))), unchanged, doneWithLevel, state]
  rfl

theorem spliceNow_rises (state : (s.stand n).state = .waiting) (level : (s.stand n).level ≠ some .urgent) :
    spliceAsked true ps s =
      done ((s.modStand n fun st => { st with level := some .urgent }).raiseRequest (s.pathOf n) n (some .urgent)) [3, 3] := by
  have left (p : PathNo) (l : Option Level) :
      ((s.modStand n fun st => { st with level := some .urgent }).raiseRequest p n l).stand n =
        { s.stand n with level := some .urgent } :=
    State.modStand_stand_self s n fun st => { st with level := some .urgent }
  rw [spliceAsked_taken named (spliceRefusal_none candidate (.inr (.inl state))), State.spliceAskedOn, if_pos rfl,
    State.spliceNowOn_rises state level, doneWithLevel, left, state]
  rfl

theorem spliceSoon_backsOff (state : (s.stand n).state = .backoff) :
    spliceAsked false ps s = done s [4, levelCode (s.stand n).level] := by
  have unchanged : s.spliceAskedOn false n = s := State.spliceSoonOn_of_not_running (by rw [state]; exact nofun)
  rw [spliceAsked_taken named (spliceRefusal_none candidate (.inr (.inr state))), unchanged, doneWithLevel, state]
  rfl

theorem spliceNow_backsOff (state : (s.stand n).state = .backoff) :
    spliceAsked true ps s = done (s.modStand n fun st => { st with level := some .urgent }) [4, 3] := by
  rw [spliceAsked_taken named (spliceRefusal_none candidate (.inr (.inr state))), State.spliceAskedOn, if_pos rfl,
    State.spliceNowOn_backoff state, doneWithLevel, State.modStand_stand_self, state]
  rfl

end

/-! ### The SPLICE key (R70) -/

theorem State.pressSplice_taken {s : State} {n : StandNo} (takes : spliceRefusal (s.stand n) = none) :
    s.pressSplice n = s.spliceNowOn n :=
  if_pos takes

theorem State.pressSplice_refused {s : State} {n : StandNo} (refused : spliceRefusal (s.stand n) ≠ none) :
    s.pressSplice n = s :=
  if_neg refused

end Sys2Proof.Machine

namespace Sys2Proof.Statements

open Sys2Proof.Machine Sys2Proof.Safety

/-- The two splice commands are one row, by which of them it is. -/
theorem exec_spliceAsked (now : Bool) (e : CmdEvent) (s : State) :
    exec (if now then .spliceNow e else .spliceSoon e) s =
      .next (commandRow (if now then .spliceNow else .spliceSoon) (spliceAsked now) e s) := by
  cases now <;> rfl

/-- Settles O43: the refusals in their order, then the state and the level of the stand, for the commands and for the key. -/
theorem spliceCommandsAskForASplice : Obligations.SpliceCommandsAskForASplice := by
  refine ⟨?commands, ?key⟩
  case commands =>
    intro now ps position s offered run asked
    have row : run = .next (commandRow (if now then .spliceNow else .spliceSoon) (spliceAsked now) (.take position) s) :=
      exec_spliceAsked now (.take position) s
    rw [row]
    refine ⟨fun owes bad => take_unchanged offered owes (spliceAsked_badStand bad), ?_⟩
    intro n named st waiting
    refine ⟨fun owes empty => ?noCandidate, fun owes candidate splices => ?inSplice, fun owes candidate idle => ?wrongState,
      fun candidate running => ?running, fun owes candidate waits stays => ?waiting, fun candidate waits isNow lower => ?rises,
      fun owes candidate backoff isSoon => ?soonBackoff, fun owes candidate backoff isNow => ?nowBackoff⟩
    case noCandidate =>
      exact take_unchanged offered owes
        (spliceAsked_refused (s := taken s position) named (spliceRefusal_empty (st := st) empty))
    case inSplice =>
      exact take_unchanged offered owes
        (spliceAsked_refused (s := taken s position) named (spliceRefusal_splicing (st := st) candidate splices))
    case wrongState =>
      exact take_unchanged offered owes
        (spliceAsked_refused (s := taken s position) named (spliceRefusal_idle (st := st) candidate idle))
    case running =>
      exact take_answered offered (spliceAsked_running (s := taken s position) named candidate running)
    case waiting =>
      exact take_unchanged offered owes (spliceAsked_waits (s := taken s position) named candidate waits stays)
    case rises =>
      subst isNow
      exact take_answered offered (spliceNow_rises (s := taken s position) named candidate waits lower)
    case soonBackoff =>
      subst isSoon
      exact take_unchanged offered owes (spliceSoon_backsOff (s := taken s position) named candidate backoff)
    case nowBackoff =>
      subst isNow
      exact take_modStand offered owes (spliceNow_backsOff (s := taken s position) named candidate backoff)
  case key =>
    intro n s settling st u run
    have pressed : run = .next (u.pressSplice n).settleDecisions :=
      congrArg Host.Outcome.next (atEvent_settling settling fun s => s.pressSplice n)
    rw [pressed]
    refine ⟨fun candidate running => ?pressRunning, fun candidate waits lower => ?pressRises,
      fun candidate backoff => ?pressBackoff, fun idle => ?pressIdle⟩
    case pressRunning =>
      have takes : spliceRefusal st = none := spliceRefusal_none candidate (.inl running)
      rw [State.pressSplice_taken (s := u) takes, State.spliceNowOn_running (s := u) running]
    case pressRises =>
      have takes : spliceRefusal st = none := spliceRefusal_none candidate (.inr (.inl waits))
      rw [State.pressSplice_taken (s := u) takes, State.spliceNowOn_rises (s := u) waits lower]
      rfl
    case pressBackoff =>
      have takes : spliceRefusal st = none := spliceRefusal_none candidate (.inr (.inr backoff))
      rw [State.pressSplice_taken (s := u) takes, State.spliceNowOn_backoff (s := u) backoff]
    case pressIdle =>
      have refused (refusal : spliceRefusal st ≠ none) : u.pressSplice n = u := State.pressSplice_refused (s := u) refusal
      by_cases candidate : st.queue = []
      · rw [refused (by rw [spliceRefusal_empty candidate]; exact nofun)]
      · rcases idle with empty | other | ⟨waits, urgent⟩
        · exact absurd empty candidate
        · rw [refused (spliceRefusal_ne_none candidate other)]
        · have takes : spliceRefusal st = none := spliceRefusal_none candidate (.inr (.inl waits))
          rw [State.pressSplice_taken (s := u) takes, State.spliceNowOn_urgent (s := u) waits urgent]

end Sys2Proof.Statements
end

section
/-! PROOFS. The outputs of a stand (R62, R63, R186, R187): OUTPUT, the expiry of a brake timer and the end of a pulse. -/

namespace Sys2Proof.Machine

namespace State

/-! ### What the codes of OUTPUT do -/

theorem maintainDrive_eq (s : State) (n : StandNo) (code : Nat) :
    s.maintainDrive n code = s.modOutputs n fun o =>
      { o with
        drive := if code = 0 then o.drive else decide (code = 2)
        driveMaintained := o.driveMaintained || decide (code ≠ 0) } := by
  rw [maintainDrive]
  split
  case isTrue zero => exact (modOutputs_id s n _ (by simp [zero])).symm
  case isFalse acts => simp [acts]

theorem maintainBrake_eq (s : State) (n : StandNo) (code : Nat) :
    s.maintainBrake n code =
      (s.modStand n fun st => { st with brakeTimer := if code = 0 then st.brakeTimer else none }).modOutputs n fun o =>
        { o with
          brake := if code = 0 then o.brake else decide (code = 2)
          brakeMaintained := o.brakeMaintained || decide (code ≠ 0) } := by
  by_cases zero : code = 0
  · have timer : (s.modStand n fun st => { st with brakeTimer := if code = 0 then st.brakeTimer else none }) = s :=
      modStand_id s n _ (by simp only [if_pos zero])
    rw [maintainBrake, if_pos zero, timer]
    exact (modOutputs_id s n _ (by simp [zero])).symm
  · simp [maintainBrake, zero]

theorem maintainPulse_eq (s : State) (n : StandNo) (code : Nat) :
    s.maintainPulse n code = s.modOutputs n fun o =>
      { o with
        paste := if code = 1 then some (s.working n).pulseWidth else o.paste
        knife := if code = 2 then some (s.working n).pulseWidth else o.knife } := by
  match code with
  | 0 => exact (modOutputs_id s n _ rfl).symm
  | 1 => rfl
  | 2 => rfl
  | k + 3 => exact (modOutputs_id s n _ rfl).symm

/-- The output latches after the three codes of OUTPUT, with the pulse width of the stand's profile (R187). -/
def maintainedOutputs (drive brake pulse width : Nat) (o : Outputs) : Outputs where
  drive := if drive = 0 then o.drive else decide (drive = 2)
  driveMaintained := o.driveMaintained || decide (drive ≠ 0)
  brake := if brake = 0 then o.brake else decide (brake = 2)
  brakeMaintained := o.brakeMaintained || decide (brake ≠ 0)
  paste := if pulse = 1 then some width else o.paste
  knife := if pulse = 2 then some width else o.knife

/-- A change of output latches and one of a stand are made in either order. -/
theorem modOutputs_modStand (s : State) (n m : StandNo) (f : Outputs → Outputs) (g : Stand → Stand) :
    (s.modOutputs n f).modStand m g = (s.modStand m g).modOutputs n f := rfl

/-- The three codes act on the latches at once, and a brake code stops the brake timer (R187, R63). -/
theorem maintain_eq (s : State) (n : StandNo) (drive brake pulse : Nat) :
    ((s.maintainDrive n drive).maintainBrake n brake).maintainPulse n pulse =
      (s.modStand n fun st => { st with brakeTimer := if brake = 0 then st.brakeTimer else none }).modOutputs n
        (maintainedOutputs drive brake pulse (s.working n).pulseWidth) := by
  rw [maintainPulse_eq, maintainBrake_eq, modOutputs_modOutputs, maintainDrive_eq, modOutputs_modStand,
    modOutputs_modOutputs]
  rfl

end State

/-- A pulse code names an output that pulses (R187). -/
theorem pulseRunning_iff (o : Outputs) (code : Nat) :
    pulseRunning o code = true ↔ code = 1 ∧ o.paste ≠ none ∨ code = 2 ∧ o.knife ≠ none := by
  match code with
  | 0 => simp [pulseRunning]
  | 1 => simp [pulseRunning, Option.isSome_iff_ne_none]
  | 2 => simp [pulseRunning, Option.isSome_iff_ne_none]
  | k + 3 => simp [pulseRunning]

/-! ### What the stand answers to OUTPUT -/

section

variable {ps : Buffer} {s : State}

theorem output_badStand (bad : 12 ≤ byteAt ps 0) : output ps s = refuse s .badStand :=
  withStand_bad bad

variable {n : StandNo} (named : byteAt ps 0 = n.val)
include named

theorem output_badValue (bad : ¬(byteAt ps 1 ≤ 2 ∧ byteAt ps 2 ≤ 2 ∧ byteAt ps 3 ≤ 2)) :
    output ps s = refuse s .badValue := by
  have outside : 2 < byteAt ps 1 ∨ 2 < byteAt ps 2 ∨ 2 < byteAt ps 3 := by omega
  rw [output, withStand_ok n named, if_pos outside]

variable (inRange : byteAt ps 1 ≤ 2 ∧ byteAt ps 2 ≤ 2 ∧ byteAt ps 3 ≤ 2)
include inRange

theorem output_wrongState (bad : (s.stand n).state ≠ .off ∨ pulseRunning (s.output n) (byteAt ps 3) = true) :
    output ps s = refuse s .wrongState := by
  have inside : ¬(2 < byteAt ps 1 ∨ 2 < byteAt ps 2 ∨ 2 < byteAt ps 3) := by omega
  rw [output, withStand_ok n named, if_neg inside]
  by_cases off : (s.stand n).state = .off
  · exact (if_neg (not_not_intro off)).trans (if_pos (bad.resolve_left (not_not_intro off)))
  · exact if_pos off

theorem output_done (off : (s.stand n).state = .off) (idle : ¬pulseRunning (s.output n) (byteAt ps 3) = true) :
    output ps s =
      doneWithOutputs
        ((s.modStand n fun st => { st with brakeTimer := if byteAt ps 2 = 0 then st.brakeTimer else none }).modOutputs n
          (State.maintainedOutputs (byteAt ps 1) (byteAt ps 2) (byteAt ps 3) (s.working n).pulseWidth)) n := by
  have inside : ¬(2 < byteAt ps 1 ∨ 2 < byteAt ps 2 ∨ 2 < byteAt ps 3) := by omega
  rw [output, withStand_ok n named, if_neg inside, if_neg (not_not_intro off), if_neg idle, State.maintain_eq]

end

end Sys2Proof.Machine

namespace Sys2Proof.Statements

open Sys2Proof.Machine Sys2Proof.Safety

/-- Settles O44: the checks of OUTPUT in their order and the latches it leaves, and the expiries, which release a latch each. -/
theorem outputsAreDrivenAsCommanded : Obligations.OutputsAreDrivenAsCommanded := by
  refine ⟨?command, fun n s ready => ⟨fun timed => ?brake, ?paste, ?knife⟩, fun s n => ⟨rfl, rfl⟩⟩
  case command =>
    intro ps position s offered owes run drive brake pulse
    refine ⟨fun bad => take_unchanged offered owes (output_badStand bad), ?_⟩
    intro n named inRange busy width set o
    have busy_iff : pulseRunning (s.output n) (byteAt ps 3) = true ↔ busy := pulseRunning_iff _ _
    refine ⟨fun bad => ?badValue, fun valid bad => ?wrongState, fun valid off idle => ?done⟩
    case badValue => exact take_unchanged offered owes (output_badValue named bad)
    case wrongState =>
      exact take_unchanged offered owes (output_wrongState (s := taken s position) named valid (bad.imp_right busy_iff.2))
    case done =>
      have left : ((s.modStand n fun st => { st with brakeTimer := if brake = 0 then st.brakeTimer else none }).modOutputs n
          set).output n = o := State.modOutputs_output_self _ _ _
      have acts := output_done (s := taken s position) named valid off (mt busy_iff.1 idle)
      refine congrArg _ (commandRow_take (u := (s.modStand n fun st =>
        { st with brakeTimer := if brake = 0 then st.brakeTimer else none }).modOutputs n set) offered owes (acts.trans ?_))
      rw [← left]
      rfl
  case brake =>
    have timer : (s.stand n).brakeTimer.isSome = true := Option.isSome_iff_ne_none.2 timed
    exact congrArg Host.Outcome.next ((State.atEvent_ready _ s ready).trans (congrArg State.settleDecisions (if_pos timer)))
  case paste => exact congrArg Host.Outcome.next (State.atEvent_ready _ s ready)
  case knife => exact congrArg Host.Outcome.next (State.atEvent_ready _ s ready)

end Sys2Proof.Statements
end

section
/-! PROOFS. The Profile Store's fields and path settings (R150, R151, R157): PROFILE WRITE, PROFILE READ and PATH SET. -/

namespace Sys2Proof.Machine

/-! ### The fields by their numbers -/

/-- A field written by its number is read back, and every other field reads as before (R150, R151). -/
theorem profileField_withProfileField (w : Profile) (value : Nat) {field k : Nat} (valid : 1 ≤ field ∧ field ≤ 17)
    (read : 1 ≤ k ∧ k ≤ 17) :
    profileField (withProfileField w field value) k = if k = field then value else profileField w k := by
  obtain ⟨low, high⟩ := valid
  obtain ⟨first, last⟩ := read
  interval_cases field <;> (interval_cases k <;> rfl)

theorem isProfileField_iff (field : Nat) : isProfileField field = true ↔ 1 ≤ field ∧ field ≤ 17 := within_iff ..

section

variable {ps : Buffer} {s : State}

theorem profileWrite_badStand (bad : 12 ≤ byteAt ps 0) : profileWrite ps s = refuse s .badStand :=
  withStand_bad bad

theorem profileRead_badStand (bad : 12 ≤ byteAt ps 0) : profileRead ps s = refuse s .badStand :=
  withStand_bad bad

variable {n : StandNo} (named : byteAt ps 0 = n.val)
include named

theorem profileWrite_badValue (bad : ¬isProfileField (byteAt ps 1) = true) : profileWrite ps s = refuse s .badValue := by
  rw [profileWrite, withStand_ok n named, if_neg bad]

theorem profileWrite_done (valid : isProfileField (byteAt ps 1) = true) :
    profileWrite ps s =
      done (s.modProfile n fun q => { q with staged := withProfileField q.staged (byteAt ps 1) (valueAt ps 2 4) })
        ([BitVec.ofNat 8 n.val, BitVec.ofNat 8 (byteAt ps 1)] ++ leBytes 4 (valueAt ps 2 4)) := by
  rw [profileWrite, withStand_ok n named, if_pos valid]
  rfl

theorem profileRead_badValue (bad : ¬isProfileField (byteAt ps 1) = true ∨ 1 < byteAt ps 2) :
    profileRead ps s = refuse s .badValue := by
  rw [profileRead, withStand_ok n named]
  by_cases valid : isProfileField (byteAt ps 1) = true
  · obtain ⟨k, copy⟩ := Nat.exists_eq_add_of_le' (bad.resolve_left (not_not_intro valid))
    rw [if_pos valid, copy]
    rfl
  · exact if_neg valid

variable (valid : isProfileField (byteAt ps 1) = true)
include valid

theorem profileRead_staged (copy : byteAt ps 2 = 0) :
    profileRead ps s =
      done s ([BitVec.ofNat 8 n.val, BitVec.ofNat 8 (byteAt ps 1), BitVec.ofNat 8 (byteAt ps 2)] ++
        leBytes 4 (profileField (s.profile n).staged (byteAt ps 1))) := by
  rw [profileRead, withStand_ok n named, if_pos valid, copy]
  rfl

theorem profileRead_working (copy : byteAt ps 2 = 1) :
    profileRead ps s =
      done s ([BitVec.ofNat 8 n.val, BitVec.ofNat 8 (byteAt ps 1), BitVec.ofNat 8 (byteAt ps 2)] ++
        leBytes 4 (profileField (s.profile n).working (byteAt ps 1))) := by
  rw [profileRead, withStand_ok n named, if_pos valid, copy]
  rfl

end

/-! ### PATH SET (R157) -/

theorem settingsInRange_iff (g : PathSettings) :
    settingsInRange g = true ↔
      g.guardLength ≤ 100000 ∧ g.rejectLead ≤ 10000 ∧ (1000 ≤ g.rejectLength ∧ g.rejectLength ≤ 100000) ∧
        (100 ≤ g.stopTime ∧ g.stopTime ≤ 5000) := by
  simp only [settingsInRange, Bool.and_eq_true, within_iff, Nat.zero_le, true_and, and_assoc]

/-- The lowest-numbered stand of the path below a reject lead is the one that no other of the path precedes (R157). -/
theorem standBelowLead_eq_some {s : State} {p : PathNo} {lead : Nat} {n : StandNo} (assigned : s.pathOf n = p)
    (below : (s.working n).gateDistance < lead) (lowest : ∀ m < n, s.pathOf m = p → lead ≤ (s.working m).gateDistance) :
    s.standBelowLead p lead = some n := by
  rw [State.standBelowLead, State.standsOf, List.find?_filter, ← Fin.find?_eq_find?_finRange, Fin.find?_eq_some_iff]
  refine ⟨by simp [assigned, below], fun m earlier => ?_⟩
  simpa using lowest m earlier

section

variable {ps : Buffer} {s : State}

theorem pathSet_badPath (bad : 4 ≤ byteAt ps 0) : pathSet ps s = refuse s .badValue :=
  withPath_bad bad

variable {p : PathNo} (named : byteAt ps 0 = p.val)
include named

theorem pathSet_badValue (bad : ¬settingsInRange (settingsOf ps) = true) : pathSet ps s = refuse s .badValue := by
  rw [pathSet, withPath_ok p named, if_neg bad]

variable (valid : settingsInRange (settingsOf ps) = true)
include valid

theorem pathSet_badProfile {n : StandNo} (below : s.standBelowLead p (settingsOf ps).rejectLead = some n) :
    pathSet ps s = ⟨s, ⟨.badProfile, [BitVec.ofNat 8 n.val]⟩⟩ := by
  rw [pathSet, withPath_ok p named, if_pos valid, below]
  rfl

theorem pathSet_done (none : s.standBelowLead p (settingsOf ps).rejectLead = none) :
    pathSet ps s = done (s.setSetting p (settingsOf ps)) (settingsBytes (settingsOf ps)) := by
  rw [pathSet, withPath_ok p named, if_pos valid, none]

end

end Sys2Proof.Machine

namespace Sys2Proof.Statements

open Sys2Proof.Machine Sys2Proof.Safety

/-- The taking of a command that changes a stand's profiles and prompts no decision. -/
theorem take_modProfile {c : Command} {ps : Buffer} {position : Nat} {s : State} (offered : Offered c ps position s)
    (owes : NoDecisionOwed s) {act : Buffer → State → Taken} {n : StandNo} {f : StandProfile → StandProfile} {r : Result}
    {reply : List Byte} (acts : act ps (taken s position) = ⟨(taken s position).modProfile n f, ⟨r, reply⟩⟩) :
    (.next (commandRow c act (.take position) s) : Host.Outcome State Fault Refusal) =
      .next (replied (s.modProfile n f) position r reply) :=
  congrArg _ (commandRow_take (u := s.modProfile n f) offered owes acts)

/-- A change of a stand's staged profile, read from what it held. -/
theorem modProfile_staged (s : State) (n : StandNo) (f : Profile → Profile) :
    (s.modProfile n fun q => { q with staged := f q.staged }) =
      s.modProfile n fun q => { q with staged := f (s.profile n).staged } := rfl

/-- Settles O45: the stand and the field number for a profile's fields; the path, the ranges and the stands of the path for its
settings. -/
theorem profilesAndSettingsAreWritten : Obligations.ProfilesAndSettingsAreWritten := by
  refine ⟨fun w => rfl, fun c ps position s which offered owes bad => ?badStand, ?fields, ?settings⟩
  case badStand =>
    rcases which with rfl | rfl
    · exact take_unchanged offered owes (profileWrite_badStand bad)
    · exact take_unchanged offered owes (profileRead_badStand bad)
  case fields =>
    intro ps position s n named owes field
    have number (low : 1 ≤ field) (high : field ≤ 17) : isProfileField field = true := (isProfileField_iff _).2 ⟨low, high⟩
    have outside (bad : field < 1 ∨ 17 < field) : ¬isProfileField field = true := by rw [isProfileField_iff]; omega
    refine ⟨fun offered => ⟨fun bad => ?writeBadValue, fun low high => ?written⟩, fun offered =>
      ⟨fun bad => ?readBadValue, fun low high copy => ?readStaged, fun low high copy => ?readWorking⟩⟩
    case writeBadValue =>
      exact take_unchanged offered owes (profileWrite_badValue (s := taken s position) named (outside bad))
    case written =>
      refine ⟨withProfileField (s.profile n).staged field (valueAt ps 2 4), ?_, fun k first last =>
        profileField_withProfileField _ _ ⟨low, high⟩ ⟨first, last⟩⟩
      rw [← modProfile_staged s n fun w => withProfileField w field (valueAt ps 2 4)]
      exact take_modProfile offered owes (profileWrite_done (s := taken s position) named (number low high))
    case readBadValue =>
      have refused : ¬isProfileField field = true ∨ 1 < byteAt ps 2 := by
        rcases bad with low | high | copy
        · exact .inl (outside (.inl low))
        · exact .inl (outside (.inr high))
        · exact .inr copy
      exact take_unchanged offered owes (profileRead_badValue (s := taken s position) named refused)
    case readStaged =>
      exact take_unchanged offered owes (profileRead_staged (s := taken s position) named (number low high) copy)
    case readWorking =>
      exact take_unchanged offered owes (profileRead_working (s := taken s position) named (number low high) copy)
  case settings =>
    intro ps position s offered owes run g inRange
    have range_iff : settingsInRange (settingsOf ps) = true ↔ inRange := settingsInRange_iff _
    refine ⟨fun bad => ?setBadValue, fun p named valid => ⟨fun n assigned below lowest => ?setBadProfile, fun above => ?set⟩⟩
    case setBadValue =>
      by_cases path : 4 ≤ byteAt ps 0
      · exact take_unchanged offered owes (pathSet_badPath path)
      · have outside := mt range_iff.1 (bad.resolve_left path)
        exact take_unchanged offered owes
          (pathSet_badValue (s := taken s position) (p := ⟨byteAt ps 0, Nat.not_le.1 path⟩) rfl outside)
    case setBadProfile =>
      exact take_unchanged offered owes
        (pathSet_badProfile (s := taken s position) named (range_iff.2 valid) (standBelowLead_eq_some assigned below lowest))
    case set =>
      have none : (taken s position).standBelowLead p g.rejectLead = none := (standBelowLead_eq_none_iff _ _ _).2 above
      exact congrArg _ (commandRow_take (u := s.setSetting p g) offered owes
        (pathSet_done (s := taken s position) named (range_iff.2 valid) none))

end Sys2Proof.Statements
end

section
/-! PROOFS. PROFILE CHANGE (R152 to R156): the validation, the application of a valid profile with the re-check of the queue
(R35, R31), and the deferred application. -/

namespace Sys2Proof.Machine

namespace State

/-! ### The validation (R152) -/

section

variable {s : State} {n : StandNo}

/-- The lowest-numbered field out of range is the one the validation fails on. -/
theorem validateProfile_field {k : Nat} (low : 1 ≤ k) (high : k ≤ 17)
    (before : ∀ j, 1 ≤ j → j < k → profileFieldInRange j (profileField (s.profile n).staged j) = true)
    (bad : ¬profileFieldInRange k (profileField (s.profile n).staged k) = true) : s.validateProfile n = some k := by
  have found : profileFieldNumbers.find? (fun j => !profileFieldInRange j (profileField (s.profile n).staged j)) = some k := by
    change (List.range' 1 17).find? _ = some k
    rw [List.find?_range'_eq_some]
    refine ⟨by simp [bad], by simp; omega, fun j first earlier => ?_⟩
    simp [before j first earlier]
  simp only [validateProfile, found]

variable (fields : ∀ k, 1 ≤ k → k ≤ 17 → profileFieldInRange k (profileField (s.profile n).staged k) = true)
include fields

theorem noFieldFails :
    profileFieldNumbers.find? (fun k => !profileFieldInRange k (profileField (s.profile n).staged k)) = none := by
  rw [List.find?_eq_none]
  intro k number
  have bounds : 1 ≤ k ∧ k < 1 + 17 := List.mem_range'_1.1 number
  simp [fields k bounds.1 (by omega)]

theorem validateProfile_order
    (bad : ¬((s.profile n).staged.criticalDiameter < (s.profile n).staged.spliceDiameter ∧
      (s.profile n).staged.spliceDiameter < (s.profile n).staged.warnDiameter)) : s.validateProfile n = some 5 := by
  simp only [validateProfile, noFieldFails fields]
  exact if_pos bad

variable (ordered : (s.profile n).staged.criticalDiameter < (s.profile n).staged.spliceDiameter ∧
  (s.profile n).staged.spliceDiameter < (s.profile n).staged.warnDiameter)
include ordered

theorem validateProfile_gate
    (bad : ¬(s.setting (profilePath (s.profile n).staged)).rejectLead ≤ (s.profile n).staged.gateDistance) :
    s.validateProfile n = some 10 := by
  simp only [validateProfile, noFieldFails fields]
  exact (if_neg (not_not_intro ordered)).trans (if_pos (Nat.not_le.1 bad))

theorem validateProfile_valid
    (clears : (s.setting (profilePath (s.profile n).staged)).rejectLead ≤ (s.profile n).staged.gateDistance) :
    s.validateProfile n = none := by
  simp only [validateProfile, noFieldFails fields]
  exact (if_neg (not_not_intro ordered)).trans (if_neg (Nat.not_lt.2 clears))

end

/-! ### The re-check of the queue (R35) -/

/-- An entry that the join test refuses leaves the queue, and MISMATCH is filed (R35, R28). -/
def dropEntry (s : State) (n : StandNo) (h : Handle) : State :=
  ((s.modStand n fun st => { st with queue := st.queue.filter (· != h) }).modReel h fun r =>
    { r with mismatch := true }).fileReel n .mismatch ⟨(s.stand n).running, some h, none, none⟩

theorem dropEntry_stand (s : State) (n : StandNo) (h : Handle) :
    (s.dropEntry n h).stand n = { s.stand n with queue := (s.stand n).queue.filter (· != h) } :=
  modStand_stand_self s n fun st => { st with queue := st.queue.filter (· != h) }

theorem dropEntry_reel_ne (s : State) (n : StandNo) {h k : Handle} (other : h ≠ k) : (s.dropEntry n h).reel k = s.reel k := by
  change ((s.modStand n _).modReel h _).reel k = _
  rw [modReel_reel, if_neg other, modStand_reel]

/-- The join test of the record of a handle under the stand's working profile (R27). -/
def fitsQueue (s : State) (n : StandNo) (h : Handle) : Bool := (s.reel h).any (joinTest (s.working n))

theorem recheckEntry_fits {s : State} {n : StandNo} {h : Handle} (fits : s.fitsQueue n h = true) : s.recheckEntry n h = s :=
  if_pos fits

theorem recheckEntry_drops {s : State} {n : StandNo} {h : Handle} (bad : s.fitsQueue n h = false) :
    s.recheckEntry n h = s.dropEntry n h := by
  have running : ((s.leaveQueue n h).stand n).running = (s.stand n).running := by rw [leaveQueue_stand_self]
  refine (if_neg (Bool.eq_false_iff.1 bad)).trans ?_
  rw [refuseJoin, running]
  rfl

/-- The drop of one entry leaves the test of another as it was. -/
theorem fitsQueue_dropEntry (s : State) (n : StandNo) {h k : Handle} (other : h ≠ k) :
    (s.dropEntry n h).fitsQueue n k = s.fitsQueue n k := by
  rw [fitsQueue, dropEntry_reel_ne s n other]
  rfl

section

variable {s : State} {p : PathNo} {n : StandNo} {h k : Handle}

theorem recheck_empty (queue : (s.stand n).queue = []) : s.recheck p n = s := by
  simp only [recheck, queue]

theorem recheck_one (queue : (s.stand n).queue = [h]) :
    s.recheck p n =
      if h ∈ ((s.recheckEntry n h).stand n).queue then s.recheckEntry n h
      else (s.recheckEntry n h).respondToLeave p n h := by
  simp only [recheck, queue]
  rfl

theorem recheck_one_fits (queue : (s.stand n).queue = [h]) (fits : s.fitsQueue n h = true) : s.recheck p n = s := by
  rw [recheck_one queue, recheckEntry_fits fits]
  exact if_pos (by simp [queue])

theorem recheck_one_drops (queue : (s.stand n).queue = [h]) (bad : s.fitsQueue n h = false) :
    s.recheck p n = (s.dropEntry n h).respondToLeave p n h := by
  rw [recheck_one queue, recheckEntry_drops bad]
  exact if_neg (by simp [dropEntry_stand])

variable (queue : (s.stand n).queue = [h, k])
include queue

theorem recheck_two {checked : State} (checks : (s.recheckEntry n h).recheckEntry n k = checked) :
    s.recheck p n =
      if h ∈ (checked.stand n).queue then checked
      else checked.respondToLeave p n (([k].filter fun x => x ∉ (checked.stand n).queue).getLast?.getD h) := by
  subst checks
  simp only [recheck, queue]
  rfl

variable (other : h ≠ k)

theorem recheck_two_fit (head : s.fitsQueue n h = true) (second : s.fitsQueue n k = true) : s.recheck p n = s := by
  rw [recheck_two queue (by rw [recheckEntry_fits head, recheckEntry_fits second])]
  exact if_pos (by simp [queue])

include other

theorem recheck_two_second_drops (head : s.fitsQueue n h = true) (second : s.fitsQueue n k = false) :
    s.recheck p n = s.dropEntry n k := by
  rw [recheck_two queue (by rw [recheckEntry_fits head, recheckEntry_drops second])]
  exact if_pos (by simp [dropEntry_stand, queue, other])

theorem recheck_two_head_drops (head : s.fitsQueue n h = false) (second : s.fitsQueue n k = true) :
    s.recheck p n = s.dropEntry n h := by
  have kept : (s.dropEntry n h).fitsQueue n k = true := (fitsQueue_dropEntry s n other).trans second
  have left : ((s.dropEntry n h).stand n).queue = [k] := by simp [dropEntry_stand, queue, other.symm]
  rw [recheck_two queue (by rw [recheckEntry_drops head, recheckEntry_fits kept]), left, if_neg (by simp [other])]
  exact respondToLeave_of_entries (by rw [left]; exact nofun)

theorem recheck_two_both_drop (head : s.fitsQueue n h = false) (second : s.fitsQueue n k = false) :
    s.recheck p n = ((s.dropEntry n h).dropEntry n k).respondToLeave p n k := by
  have refused : (s.dropEntry n h).fitsQueue n k = false := (fitsQueue_dropEntry s n other).trans second
  have left : (((s.dropEntry n h).dropEntry n k).stand n).queue = [] := by simp [dropEntry_stand, queue]
  rw [recheck_two queue (by rw [recheckEntry_drops head, recheckEntry_drops refused]), left, if_neg (by simp)]
  rfl

end

/-! ### The application of a profile (R154) -/

theorem respondToLeave_profiles (s : State) (p : PathNo) (n : StandNo) (left : Handle) :
    (s.respondToLeave p n left).profiles = s.profiles := by
  rw [respondToLeave]
  split
  · split <;> rfl
  · rfl

theorem recheckEntry_profiles (s : State) (n : StandNo) (h : Handle) : (s.recheckEntry n h).profiles = s.profiles := by
  rw [recheckEntry]
  split <;> rfl

theorem recheckEntries_profiles (n : StandNo) (l : List Handle) (s : State) :
    (l.foldl (fun s h => s.recheckEntry n h) s).profiles = s.profiles := by
  induction l generalizing s with
  | nil => rfl
  | cons h rest ih => exact (ih _).trans (recheckEntry_profiles s n h)

/-- The re-check of a queue leaves every profile. -/
theorem recheck_profiles (s : State) (p : PathNo) (n : StandNo) : (s.recheck p n).profiles = s.profiles := by
  rw [recheck]
  split
  · rfl
  · rename_i head rest _
    have kept : (rest.foldl (fun s h => s.recheckEntry n h) (s.recheckEntry n head)).profiles = s.profiles :=
      (recheckEntries_profiles n rest _).trans (recheckEntry_profiles s n head)
    dsimp only
    split
    · exact kept
    · exact (respondToLeave_profiles ..).trans kept

theorem startWatcher_profiles (s : State) (n : StandNo) : (s.startWatcher n).profiles = s.profiles := by
  rw [startWatcher]
  split <;> rfl

theorem moveWatcher_profiles (s : State) (n : StandNo) : (s.moveWatcher n).profiles = s.profiles := by
  rw [moveWatcher]
  split
  · rfl
  · rfl
  · exact startWatcher_profiles s n
  · exact startWatcher_profiles s n

theorem pathOf_of_profiles {s u : State} (same : u.profiles = s.profiles) (n : StandNo) : u.pathOf n = s.pathOf n := by
  rw [pathOf, working, profile, same]
  rfl

/-- The state with the staged profile of a stand made the working one. -/
def copiedProfile (s : State) (n : StandNo) : State := s.modProfile n fun q => { q with working := q.staged }

/-- The state in which a stand has changed paths, its request apart (R46, R123, R154). -/
def movedStand (s : State) (n : StandNo) : State :=
  ((((s.copiedProfile n).clearMarks (s.pathOf n) n).clearMarks ((s.copiedProfile n).pathOf n) n).moveWatcher n).recheck
    (s.pathOf n) n

theorem movedStand_pathOf (s : State) (n : StandNo) : (s.movedStand n).pathOf n = (s.copiedProfile n).pathOf n :=
  pathOf_of_profiles ((recheck_profiles ..).trans (moveWatcher_profiles ..)) n

section

variable {s : State} {n : StandNo}

theorem applyProfile_same (same : (s.copiedProfile n).pathOf n = s.pathOf n) :
    s.applyProfile n = ((s.copiedProfile n).recheck (s.pathOf n) n).testFlags n :=
  if_pos same

theorem applyProfile_moves (other : (s.copiedProfile n).pathOf n ≠ s.pathOf n) :
    s.applyProfile n = ((s.movedStand n).moveRequest (s.pathOf n) n).testFlags n :=
  if_neg other

theorem moveRequest_of_waiting {old : PathNo} (waiting : (s.stand n).state = .waiting) :
    s.moveRequest old n = (s.withdrawRequest old n).raiseRequest (s.pathOf n) n (s.stand n).level :=
  if_pos waiting

theorem moveRequest_of_not {old : PathNo} (other : (s.stand n).state ≠ .waiting) : s.moveRequest old n = s :=
  if_neg other

end

/-! ### The deferred application (R155) -/

section

variable {s : State} {n : StandNo}

theorem applyDeferredProfile_of_not (idle : ¬((s.stand n).deferredProfile = true ∧ splicing (s.stand n).state = false)) :
    s.applyDeferredProfile n = s :=
  if_neg idle

/-- The mark is cleared, and the validation does not read it. -/
theorem validateProfile_modStand (s : State) (n m : StandNo) (f : Stand → Stand) :
    (s.modStand m f).validateProfile n = s.validateProfile n := rfl

variable (due : (s.stand n).deferredProfile = true ∧ splicing (s.stand n).state = false)
include due

theorem applyDeferredProfile_refused {field : Nat} (fails : s.validateProfile n = some field) :
    s.applyDeferredProfile n =
      (s.modStand n fun st => { st with deferredProfile := false }).setOutcome n .refused field := by
  rw [applyDeferredProfile, applyDeferredProfileWith, if_pos due]
  simp only [validateProfile_modStand, fails]

theorem applyDeferredProfile_applied (valid : s.validateProfile n = none) :
    s.applyDeferredProfile n =
      ((s.modStand n fun st => { st with deferredProfile := false }).setOutcome n .applied 0).applyProfile n := by
  rw [applyDeferredProfile, applyDeferredProfileWith, if_pos due]
  simp only [validateProfile_modStand, valid]
  rfl

end

end State

/-! ### What the Profile Store answers to PROFILE CHANGE (R153) -/

section

variable {ps : Buffer} {s : State}

theorem profileChange_badStand (bad : 12 ≤ byteAt ps 0) : profileChange ps s = refuse s .badStand :=
  withStand_bad bad

variable {n : StandNo} (named : byteAt ps 0 = n.val)
include named

theorem profileChange_deferred (splices : splicing (s.stand n).state = true) :
    profileChange ps s =
      ⟨(s.modStand n fun st => { st with deferredProfile := true }).setOutcome n .pending 0, ⟨.deferred, []⟩⟩ := by
  rw [profileChange, withStand_ok n named, if_pos splices]

variable (quiet : splicing (s.stand n).state = false)
include quiet

theorem profileChange_refused {field : Nat} (fails : s.validateProfile n = some field) :
    profileChange ps s = ⟨s.setOutcome n .refused field, ⟨.badProfile, [BitVec.ofNat 8 field]⟩⟩ := by
  rw [profileChange, withStand_ok n named, if_neg (Bool.eq_false_iff.1 quiet), fails]
  rfl

theorem profileChange_applied (valid : s.validateProfile n = none) :
    profileChange ps s =
      done ((s.setOutcome n .applied 0).applyProfile n)
        [standStateCode (((s.setOutcome n .applied 0).applyProfile n).stand n).state] := by
  rw [profileChange, withStand_ok n named, if_neg (Bool.eq_false_iff.1 quiet), valid]

end

end Sys2Proof.Machine

namespace Sys2Proof.Statements

open Sys2Proof.Machine Sys2Proof.Safety

/-- Settles O46: the stand's state and the validation for the command, the fields in their order for the validation, the paths
for the application, and the test of each entry for the re-check. -/
theorem profileChangeValidatesAndApplies : Obligations.ProfileChangeValidatesAndApplies := by
  refine ⟨?command, fun s n => ?validation, fun v => ?lowRanges, fun v => ?highRanges, ?application, ?recheck, ?deferred⟩
  case command =>
    intro ps position s offered run
    refine ⟨fun owes bad => take_unchanged offered owes (profileChange_badStand bad), ?_⟩
    intro n named applied
    refine ⟨fun owes splices => ?pending, fun owes quiet field fails => ?refused, fun quiet valid => ?applied⟩
    case pending =>
      exact congrArg _ (commandRow_take (u := (s.modStand n fun st => { st with deferredProfile := true }).setOutcome n .pending 0)
        offered owes (profileChange_deferred (s := taken s position) named splices))
    case refused =>
      exact take_modProfile offered owes (profileChange_refused (s := taken s position) named quiet fails)
    case applied =>
      exact take_answered offered (profileChange_applied (s := taken s position) named quiet valid)
  case validation =>
    exact ⟨fun k low high before bad => State.validateProfile_field low high before bad,
      fun fields bad => State.validateProfile_order fields bad,
      fun fields ordered bad => State.validateProfile_gate fields ordered bad,
      fun fields ordered clears => State.validateProfile_valid fields ordered clears⟩
  case lowRanges => simp [profileFieldInRange, within]
  case highRanges => simp [profileFieldInRange, within, Bool.or_assoc, beq_eq_decide]
  case application =>
    intro s n old copied new moved
    refine ⟨State.applyProfile_same, fun other waiting => ?_, fun other still => ?_⟩
    · have path : moved.pathOf n = new := s.movedStand_pathOf n
      refine (State.applyProfile_moves other).trans (congrArg (State.testFlags · n) ?_)
      rw [← path]
      exact State.moveRequest_of_waiting waiting
    · exact (State.applyProfile_moves other).trans (congrArg (State.testFlags · n) (State.moveRequest_of_not still))
  case recheck =>
    intro s p n h k st fits drop
    exact ⟨State.recheck_empty, State.recheck_one_fits, State.recheck_one_drops,
      fun queue _ => State.recheck_two_fit queue, State.recheck_two_second_drops, State.recheck_two_head_drops,
      fun queue other head second => by
        have running : ((s.dropEntry n h).stand n).running = st.running := by rw [State.dropEntry_stand]
        rw [State.recheck_two_both_drop queue other head second, State.dropEntry, running]
        rfl,
      fun still => still.elim State.respondToLeave_of_entries fun states => State.respondToLeave_of_state states.1 states.2,
      State.respondToLeave_backoff, State.respondToLeave_waiting⟩
  case deferred =>
    exact fun s n => ⟨State.applyDeferredProfile_of_not,
      fun due field fails => State.applyDeferredProfile_refused due fails,
      fun due valid => State.applyDeferredProfile_applied due valid⟩

end Sys2Proof.Statements
end

section
/-! PROOFS. The pulses and the stop of a web (R39 to R42, R104, R185), and the targets on its counter (R40). -/

namespace Sys2Proof.Machine.State

/-! ### Web pulses and the stop of a path -/

theorem takeReached_web (s : State) (p q : PathNo) : (s.takeReached p).web q = s.web q := by
  rw [web, (s.takeReached_keeps p).1]
  rfl

theorem takeReached_setting (s : State) (p q : PathNo) : (s.takeReached p).setting q = s.setting q := by
  rw [setting, (s.takeReached_keeps p).2.2.1]
  rfl

/-- The web of a path after a pulse: it moves, and its motion timer runs anew (R39, R41). -/
def countedPulse (s : State) (p : PathNo) (stopTime : Nat) : State :=
  s.modWeb p fun w => ⟨w.counter + 1, true, some stopTime, true⟩

section

variable {s : State} {p : PathNo}

theorem pulseEdge_early {since : Nat} (taken : (s.web p).pulseTaken = true) (early : since < 40) : s.pulseEdge p since = s :=
  if_pos ⟨taken, early⟩

theorem pulseEdge_counts {since : Nat} (late : (s.web p).pulseTaken = false ∨ 40 ≤ since) :
    s.pulseEdge p since = (s.takeReached p).takePulse p := by
  refine if_neg fun ⟨taken, early⟩ => ?_
  rcases late with first | spaced
  · exact Bool.false_ne_true (first.symm.trans taken)
  · exact absurd early (Nat.not_lt.2 spaced)

theorem takePulse_moving (moving : (s.web p).moving = true) : s.takePulse p = s.countedPulse p (s.setting p).stopTime :=
  if_pos moving

theorem takePulse_stopped (stopped : (s.web p).moving = false) :
    s.takePulse p = (s.countedPulse p (s.setting p).stopTime).fileLine (pathSource p) .pathStarted Detail.empty :=
  if_neg (Bool.eq_false_iff.1 stopped)

/-! ### The stands that a stop concerns (R104) -/

/-- The stands of a path in RUN-UP or PASTE, in number order. -/
def concernedStands (s : State) (p : PathNo) : List StandNo := (s.standsOf p).filter fun n => beforePaste (s.stand n).state

theorem mem_concernedStands (s : State) (p : PathNo) (n : StandNo) :
    n ∈ s.concernedStands p ↔ s.pathOf n = p ∧ beforePaste (s.stand n).state = true := by
  simp [concernedStands, standsOf, and_comm]

theorem concernedStands_nodup (s : State) (p : PathNo) : (s.concernedStands p).Nodup :=
  ((List.nodup_finRange 12).filter _).filter _

/-- The stands of the list `order` that are concerned come first, each once, and then the others. -/
theorem stoppedStands_eq (s : State) (p : PathNo) (order : List StandNo) :
    s.stoppedStands p order =
      (order.filter fun n => n ∈ s.concernedStands p).dedup ++ (s.concernedStands p).filter fun n => n ∉ order := rfl

theorem mem_stoppedStands (s : State) (p : PathNo) (order : List StandNo) (n : StandNo) :
    n ∈ s.stoppedStands p order ↔ s.pathOf n = p ∧ beforePaste (s.stand n).state = true := by
  rw [← mem_concernedStands, stoppedStands_eq, List.mem_append, List.mem_dedup, List.mem_filter, List.mem_filter,
    decide_eq_true_eq, decide_eq_true_eq]
  tauto

theorem stoppedStands_nodup (s : State) (p : PathNo) (order : List StandNo) : (s.stoppedStands p order).Nodup := by
  rw [stoppedStands_eq]
  refine List.Nodup.append (List.nodup_dedup _) ((s.concernedStands_nodup p).filter _) fun n first rest => ?_
  rw [List.mem_dedup, List.mem_filter] at first
  rw [List.mem_filter, decide_eq_true_eq] at rest
  exact rest.2 first.1

/-- An order that names the concerned stands, each once, is the order they take the stop in. -/
theorem stoppedStands_of_order {order : List StandNo} (once : order.Nodup) (names : ∀ n, n ∈ order ↔ n ∈ s.concernedStands p) :
    s.stoppedStands p order = order := by
  have all : (order.filter fun n => n ∈ s.concernedStands p) = order :=
    List.filter_eq_self.2 fun n ordered => decide_eq_true ((names n).1 ordered)
  have none : ((s.concernedStands p).filter fun n => n ∉ order) = [] :=
    List.filter_eq_nil_iff.2 fun n concerned => by simp [(names n).2 concerned]
  rw [stoppedStands_eq, all, none, List.append_nil, List.Nodup.dedup once]

end

/-! ### The targets that a pulse has reached (R40) -/

/-- Where none of a list of targets is due, none is taken. -/
theorem takeDue_of_none {s : State} {p : PathNo} (l : List Target)
    (none : ∀ t ∈ l, ¬(s.targetPath t = p ∧ s.targetDue t = true)) : l.foldl (takeIfDue p) s = s := by
  induction l with
  | nil => rfl
  | cons t rest ih =>
    rw [List.foldl_cons, takeIfDue_of_not s p t (none t List.mem_cons_self)]
    exact ih fun t' there => none t' (List.mem_cons_of_mem _ there)

/-- The states through which a list of targets is gone through, each left by the one before it. -/
theorem exists_takeDue_states (p : PathNo) (l : List Target) (s : State) :
    ∃ states : List State, states.length = l.length + 1 ∧ states.head? = some s ∧
      states.getLast? = some (l.foldl (takeIfDue p) s) ∧
      ∀ (k : Nat) (t : Target) (u v : State), l[k]? = some t → states[k]? = some u → states[k + 1]? = some v →
        v = takeIfDue p u t ∧ u.phase = s.phase := by
  induction l generalizing s with
  | nil => exact ⟨[s], rfl, rfl, rfl, fun _ _ _ _ named => nomatch named⟩
  | cons first rest ih =>
    obtain ⟨states, length, head, last, steps⟩ := ih (takeIfDue p s first)
    obtain ⟨tail, rfl⟩ := List.head?_eq_some_iff.1 head
    refine ⟨s :: takeIfDue p s first :: tail, congrArg Nat.succ length, rfl, last, fun k t u v named before after => ?_⟩
    cases k with
    | zero =>
      obtain rfl : first = t := Option.some.inj named
      obtain rfl : s = u := Option.some.inj before
      exact ⟨(Option.some.inj after).symm, rfl⟩
    | succ k =>
      obtain ⟨step, phase⟩ := steps k t u v named before after
      exact ⟨step, phase.trans (takeIfDue_keeps s p first).2.1⟩

/-- A target that alone is due, and leaves none due, is all that is taken. -/
theorem takeReached_of_single {s : State} {p : PathNo} {t : Target} (listed : t ∈ targetsOf p)
    (others : ∀ t' ∈ targetsOf p, t' ≠ t → ¬(s.targetPath t' = p ∧ s.targetDue t' = true))
    (after : ∀ t' ∈ targetsOf p, ¬((takeIfDue p s t).targetPath t' = p ∧ (takeIfDue p s t).targetDue t' = true)) :
    s.takeReached p = takeIfDue p s t := by
  obtain ⟨before, rest, split, first⟩ := List.eq_append_cons_of_mem listed
  have ahead {t' : Target} (there : t' ∈ before) : t' ∈ targetsOf p := split ▸ List.mem_append_left _ there
  have behind {t' : Target} (there : t' ∈ rest) : t' ∈ targetsOf p :=
    split ▸ List.mem_append_right _ (List.mem_cons_of_mem _ there)
  have none : before.foldl (takeIfDue p) s = s :=
    takeDue_of_none before fun t' there => others t' (ahead there) fun same => first (same ▸ there)
  rw [takeReached, split, List.foldl_append, none, List.foldl_cons]
  exact takeDue_of_none rest fun t' there => after t' (behind there)

/-! ### Which targets are pending -/

theorem pendingTarget_runMarkDeadline (s : State) (n : StandNo) :
    s.pendingTarget (.runMarkDeadline n) =
      if (s.watcher n).state = .starting ∨ (s.watcher n).state = .timing then (s.watcher n).deadline else none := by
  cases state : (s.watcher n).state <;> simp [pendingTarget, state]

theorem pendingTarget_reckoningStep (s : State) (n : StandNo) :
    s.pendingTarget (.reckoningStep n) =
      if (s.watcher n).state = .reckoning then (s.watcher n).reckoningCount.map (· + 1000) else none := by
  cases state : (s.watcher n).state <;> simp [pendingTarget, state, advance]

theorem beforePaste_iff (state : StandState) : beforePaste state = true ↔ state = .runUp ∨ state = .paste := by
  cases state <;> simp [beforePaste]

theorem pendingTarget_freshReelMarkDeadline (s : State) (n : StandNo) :
    s.pendingTarget (.freshReelMarkDeadline n) =
      if (s.stand n).state = .runUp ∨ (s.stand n).state = .paste then (s.stand n).context.bind (·.watchDeadline) else none := by
  simp only [pendingTarget, beforePaste_iff]

end Sys2Proof.Machine.State

namespace Sys2Proof.Statements

open Sys2Proof.Machine Sys2Proof.Safety

/-- Settles O48: the spacing of the edge and the motion of the web, the order in which the stands take the stop, and the state of
a stand that takes it. -/
theorem pulsesCountAndTheWebStops : Obligations.PulsesCountAndTheWebStops := by
  refine ⟨?pulse, ?stop, fun s n => ⟨fun before => ?concerned, fun other => ?passed⟩⟩
  case pulse =>
    intro p since s ready w counted run
    have edge : run = .next (s.pulseEdge p since).settleDecisions := congrArg Host.Outcome.next (State.atEvent_ready _ s ready)
    have counts : (s.takeReached p).countedPulse p ((s.takeReached p).setting p).stopTime = counted := by
      rw [s.takeReached_setting p p]
      rfl
    have web := s.takeReached_web p p
    rw [edge]
    refine ⟨fun taken early => ?_, fun late moving => ?_, fun late stopped => ?_⟩
    · rw [State.pulseEdge_early taken early]
    · rw [State.pulseEdge_counts late, State.takePulse_moving ((congrArg Web.moving web).trans moving), counts]
    · rw [State.pulseEdge_counts late, State.takePulse_stopped ((congrArg Web.moving web).trans stopped), counts]
      rfl
  case stop =>
    intro p order s ready timed u stopped
    have timer : (s.web p).motionTimer.isSome = true := Option.isSome_iff_ne_none.2 timed
    refine ⟨u.stoppedStands p order, u.stoppedStands_nodup p order, u.mem_stoppedStands p order, fun once names =>
      State.stoppedStands_of_order once fun n => (names n).trans (u.mem_concernedStands p n).symm, ?_⟩
    exact congrArg Host.Outcome.next ((State.atEvent_ready _ s ready).trans (congrArg State.settleDecisions (if_pos timer)))
  case concerned => exact if_pos before
  case passed => exact if_neg (Bool.eq_false_iff.1 other)

/-- The row of a target that is pending and reached takes its owner's event (R40, R121). -/
theorem exec_reached {s : State} {t : Target} {c : Count} (ready : s.phase = .ready) (pending : s.pendingTarget t = some c)
    (due : reached (s.web (s.targetPath t)).counter c = true) :
    exec (rowOfTarget t) s = .next (s.takeTarget t c).settleDecisions := by
  rw [exec_rowOfTarget, State.targetRow_of_reached s t c ready pending due]

/-- Settles O60: when each target is pending, the row of a due one, the list of a path's targets, and the run through them. -/
theorem reachedTargetsAreTakenBeforeTheNextPulse : Obligations.ReachedTargetsAreTakenBeforeTheNextPulse := by
  refine ⟨fun s n => ?stands, fun s p position => ⟨⟨rfl, rfl, rfl⟩, fun absent => ?absent, fun r there => ?there⟩,
    fun s t c ready pending due => exec_reached ready pending due, fun p t => State.mem_targetsOf p t, fun s p ready => ?reached⟩
  case stands =>
    exact ⟨rfl, rfl, rfl, rfl, rfl, rfl, s.pendingTarget_runMarkDeadline n, s.pendingTarget_reckoningStep n,
      s.pendingTarget_freshReelMarkDeadline n, rfl, rfl, rfl⟩
  case absent => simp [State.pendingTarget, absent]
  case there => simp [State.pendingTarget, there]
  case reached =>
    intro due
    have due_iff (u : State) (t : Target) : u.targetPath t = p ∧ u.targetDue t = true ↔ due u t := by rw [State.targetDue_iff]
    have leaves (u : State) (t : Target) : leftBy (rowOfTarget t) u = targetRow t u := by rw [leftBy, exec_rowOfTarget]
    have takes {u : State} {t : Target} (ready : u.phase = .ready) (isDue : due u t) :
        State.takeIfDue p u t = leftBy (rowOfTarget t) u := by
      obtain ⟨here, reached⟩ := (due_iff u t).2 isDue
      rw [leaves, State.takeIfDue_of_due u p t ready here reached]
    refine ⟨(s.takeReached_keeps p).1, ?states, fun none => ?none, fun t listed isDue others after => ?single⟩
    case states =>
      obtain ⟨states, length, head, last, steps⟩ := State.exists_takeDue_states p (State.targetsOf p) s
      refine ⟨states, length, head, last, fun k t u v named before next => ?_⟩
      obtain ⟨rfl, phase⟩ := steps k t u v named before next
      exact ⟨takes (phase.trans ready), fun idle => State.takeIfDue_of_not u p t (mt (due_iff u t).1 idle)⟩
    case none => exact State.takeDue_of_none _ fun t listed => mt (due_iff s t).1 (none t listed)
    case single =>
      have same := takes ready isDue
      rw [← same] at after ⊢
      exact State.takeReached_of_single listed (fun t' there other => mt (due_iff s t').1 (others t' there other))
        fun t' there => mt (due_iff _ t').1 (after t' there)

end Sys2Proof.Statements
end

section
/-! PROOFS. Run marks (R43 to R49, R83, R185): the watcher that follows the running reel, its intervals and samples, the loss of a
mark and the steps of dead reckoning. -/

namespace Sys2Proof.Machine.State

/-! ### The edge of a mark (R185) -/

theorem markEdge_early {s : State} {n : StandNo} {arm : Arm} {since : Nat} {mark : State → State}
    (early : ¬(markTaken (s.standInputs n) arm = false ∨ 1000 ≤ since)) : s.markEdge n arm since mark = s := by
  rw [not_or, Bool.not_eq_false, Nat.not_le] at early
  exact if_pos early

theorem markEdge_late {s : State} {n : StandNo} {arm : Arm} {since : Nat} {mark : State → State}
    (late : markTaken (s.standInputs n) arm = false ∨ 1000 ≤ since) :
    s.markEdge n arm since mark = mark (s.modInputs n fun i => withMarkTaken i arm) := by
  refine if_neg fun ⟨taken, early⟩ => ?_
  rcases late with first | spaced
  · exact Bool.false_ne_true (first.symm.trans taken)
  · exact absurd early (Nat.not_lt.2 spaced)

/-! ### The settle marks (R83) -/

section

variable (s : State) (n : StandNo)

/-- A mark in SETTLE touches no more than the splice context. -/
theorem countSettleMark_running : ((s.countSettleMark n).stand n).running = (s.stand n).running := by
  rw [countSettleMark]
  split
  · rw [modStand_stand_self]
  · rfl

theorem countSettleMark_reel (h : Handle) : (s.countSettleMark n).reel h = s.reel h := by
  rw [countSettleMark]
  split <;> rfl

theorem countSettleMark_watcher : (s.countSettleMark n).watcher n = s.watcher n := by
  rw [countSettleMark]
  split <;> rfl

end

/-! ### What the watcher makes of a mark (R43, R45, R49) -/

section

variable {s : State} {n : StandNo} {arm : Arm}

theorem takeRunMark_of_not (other : (s.watcher n).arm ≠ some arm ∨ (s.watcher n).state = .idle) : s.takeRunMark n arm = s :=
  if_neg fun ⟨followed, awake⟩ => other.elim (fun no => no followed) awake

variable (followed : (s.watcher n).arm = some arm)
include followed

theorem takeRunMark_starting (state : (s.watcher n).state = .starting) :
    s.takeRunMark n arm = (s.countSettleMark n).beginInterval n (s.countOf n) (s.watcher n).pLast := by
  simp only [takeRunMark, state]
  exact if_pos ⟨followed, nofun⟩

theorem takeRunMark_timing (state : (s.watcher n).state = .timing) :
    s.takeRunMark n arm =
      (s.countSettleMark n).closeInterval n (s.countOf n) (s.countOf n - (s.watcher n).reference).toNat := by
  simp only [takeRunMark, state]
  exact if_pos ⟨followed, nofun⟩

theorem takeRunMark_reckoning (state : (s.watcher n).state = .reckoning) :
    s.takeRunMark n arm = (s.countSettleMark n).restoreMeasurement n (s.countOf n) := by
  simp only [takeRunMark, state]
  exact if_pos ⟨followed, nofun⟩

end

section

variable {s : State} {n : StandNo} {h : Handle} (running : (s.stand n).running = some h)
include running

theorem modRunning_of_running (f : Reel → Reel) : s.modRunning n f = s.modReel h f := by
  simp only [modRunning, running]

variable {r : Reel} (held : s.reel h = some r)
include held

theorem runningReel_of_running : s.runningReel n = some r := by
  rw [runningReel, running]
  exact held

theorem closeInterval_accepted {count : Count} {pulses : Nat} (low : r.core ≤ diameterOf pulses)
    (high : diameterOf pulses ≤ r.diameter) :
    s.closeInterval n count pulses =
      ((s.beginInterval n count pulses).modReel h fun r => sampled r (diameterOf pulses)).testFlags n := by
  have accepts : acceptsSample r (diameterOf pulses) = true := by simp [acceptsSample, low, high]
  have begun : ((s.beginInterval n count pulses).stand n).running = some h := running
  rw [← modRunning_of_running begun]
  simp only [closeInterval, runningReel_of_running running held]
  exact if_pos accepts

theorem closeInterval_discarded {count : Count} {pulses : Nat} (bad : diameterOf pulses < r.core ∨ r.diameter < diameterOf pulses) :
    s.closeInterval n count pulses = s.beginInterval n count (s.watcher n).pLast := by
  have discards : ¬acceptsSample r (diameterOf pulses) = true := by
    simp only [acceptsSample, Bool.and_eq_true, decide_eq_true_eq]
    omega
  simp only [closeInterval, runningReel_of_running running held]
  exact if_neg discards

theorem restoreMeasurement_eq (count : Count) :
    s.restoreMeasurement n count =
      ((s.modReel h fun r => { r with deadReckoning := false }).beginInterval n count (circumferenceOf r.diameter)).fileLine
        (standSource n) .markRestored ⟨some h, none, none, none⟩ := by
  simp only [restoreMeasurement, runningReel_of_running running held, modRunning_of_running running, running]
  rfl

/-! ### The watcher follows the running reel (R44, R46, R51, R52) -/

theorem startWatcher_measuring (measured : r.deadReckoning = false) :
    s.startWatcher n = s.modWatcher n fun _ =>
      ⟨.starting, r.place.map (·.arm), some (s.pathOf n), s.countOf n, circumferenceOf r.diameter,
        some (advance (s.countOf n) (2 * circumferenceOf r.diameter)), none⟩ := by
  simp only [startWatcher, runningReel_of_running running held, measured]
  rfl

theorem startWatcher_reckoning (lost : r.deadReckoning = true) :
    s.startWatcher n = s.modWatcher n fun _ =>
      ⟨.reckoning, r.place.map (·.arm), some (s.pathOf n), s.countOf n, circumferenceOf r.diameter, none,
        some (s.countOf n)⟩ := by
  simp only [startWatcher, runningReel_of_running running held, lost]
  rfl

end

section

variable {s : State} {n : StandNo}

theorem startWatcher_of_empty (empty : (s.stand n).running = none) : s.startWatcher n = s := by
  simp only [startWatcher, runningReel, empty]
  rfl

theorem endRunningReel_of_empty (empty : (s.stand n).running = none) : s.endRunningReel n = s := by
  simp only [endRunningReel, empty]

theorem endRunningReel_of_running {h : Handle} (running : (s.stand n).running = some h) :
    s.endRunningReel n = ((s.becomeButt h).stopWatcher n).modStand n fun st =>
      { st with running := none, warn := false, splice := false, critical := false, webBroken := false } := by
  simp only [endRunningReel, running]

theorem moveWatcher_idle (state : (s.watcher n).state = .idle) : s.moveWatcher n = s := by
  simp only [moveWatcher, state]

theorem moveWatcher_measuring (state : (s.watcher n).state = .starting ∨ (s.watcher n).state = .timing) :
    s.moveWatcher n = s.startWatcher n := by
  rcases state with state | state
  · simp only [moveWatcher, state]
  · simp only [moveWatcher, state]

theorem moveWatcher_reckoning (state : (s.watcher n).state = .reckoning) :
    s.moveWatcher n =
      s.modWatcher n fun w => { w with path := some (s.pathOf n), reckoningCount := some (s.countOf n) } := by
  simp only [moveWatcher, state]

end

end Sys2Proof.Machine.State

namespace Sys2Proof.Statements

open Sys2Proof.Machine Sys2Proof.Safety

/-- Settles O49: the spacing of the edge, the arm it comes on, and the state of the watcher that takes it. -/
theorem runMarksMeasureTheRunningReel : Obligations.RunMarksMeasureTheRunningReel := by
  intro n arm since s ready w st late edge counted count interval pulses sample run
  have ran : run = .next (s.markEdge n arm since fun s => s.takeRunMark n arm).settleDecisions :=
    congrArg Host.Outcome.next (State.atEvent_ready _ s ready)
  have taken (isLate : late) {u : State} (takes : edge.takeRunMark n arm = u) : run = .next u.settleDecisions := by
    rw [ran, State.markEdge_late isLate, takes]
  have watcher : counted.watcher n = w := edge.countSettleMark_watcher n
  refine ⟨fun early => ?early, fun isLate other => taken isLate (State.takeRunMark_of_not other),
    fun isLate followed state => taken isLate (State.takeRunMark_starting (s := edge) followed state),
    fun h r running held isLate followed => ?followed⟩
  case early => rw [ran, State.markEdge_early early]
  case followed =>
    have runs : (counted.stand n).running = some h := (edge.countSettleMark_running n).trans running
    have there : counted.reel h = some r := (edge.countSettleMark_reel n h).trans held
    refine ⟨fun state low high => taken isLate ?accepted, fun state bad => taken isLate ?discarded,
      fun state => taken isLate ?restored⟩
    case accepted =>
      exact (State.takeRunMark_timing (s := edge) followed state).trans (State.closeInterval_accepted runs there low high)
    case discarded =>
      refine (State.takeRunMark_timing (s := edge) followed state).trans
        ((State.closeInterval_discarded runs there bad).trans ?_)
      rw [watcher]
      rfl
    case restored =>
      exact (State.takeRunMark_reckoning (s := edge) followed state).trans (State.restoreMeasurement_eq runs there count)

/-- Settles O50: the running reel and the state of its watcher, and the two targets of it. -/
theorem theWatcherFollowsAndReckons : Obligations.TheWatcherFollowsAndReckons := by
  refine ⟨fun s n h r => ?follows, fun n s h r ready running held =>
    ⟨fun d state deadline due => ?lost, fun c state reckoned due => ?step⟩⟩
  case follows =>
    exact ⟨fun _ => rfl, fun empty => ⟨State.endRunningReel_of_empty empty, State.startWatcher_of_empty empty⟩,
      State.endRunningReel_of_running, fun running held measured => State.startWatcher_measuring running held measured,
      fun running held lost => State.startWatcher_reckoning running held lost, State.moveWatcher_idle,
      State.moveWatcher_measuring, State.moveWatcher_reckoning⟩
  case lost =>
    have pending : s.pendingTarget (.runMarkDeadline n) = some d := by
      rw [State.pendingTarget_runMarkDeadline, if_pos state, deadline]
    refine (exec_reached ready pending due).trans ?_
    simp only [State.takeTarget, State.loseRunMark, State.modRunning_of_running running, running]
    rfl
  case step =>
    have pending : s.pendingTarget (.reckoningStep n) = some (c + 1000) := by
      rw [State.pendingTarget_reckoningStep, if_pos state, reckoned, Option.map_some]
    have runs : ((s.modWatcher n fun w => { w with reckoningCount := some (c + 1000) }).stand n).running = some h := running
    refine (exec_reached ready pending due).trans ?_
    simp only [State.takeTarget, State.takeReckoningStep, State.modRunning_of_running runs]
    rfl

end Sys2Proof.Statements
end

section
/-! PROOFS. Threshold events (R36, R54, R65 to R67) by the state of the stand that takes them, and the reading of the flags at the
entry into RUNNING (R71). -/

namespace Sys2Proof.Machine

/-- A level is below NORMAL when it is absent or EARLY (R66). -/
theorem levelRank_lt_two_iff (l : Option Level) : levelRank l < 2 ↔ l = none ∨ l = some .early := by
  match l with
  | none | some .early | some .normal | some .urgent => decide

/-- The level at which a threshold event takes a RUNNING stand into WAITING (R65). -/
def calledLevel : Threshold → Level
  | .warn => .normal
  | .splice => .urgent
  | .critical => .urgent

namespace State

section

variable {s : State} {n : StandNo}

/-! ### The test of the flags (R54) -/

theorem testFlags_of_empty (empty : (s.stand n).running = none) : s.testFlags n = s := by
  simp only [testFlags, testFlagsWith, runningReel, empty]
  rfl

theorem testFlags_of_running {h : Handle} {r : Reel} (running : (s.stand n).running = some h) (held : s.reel h = some r) :
    s.testFlags n =
      ((s.testFlagWith forcedTake n r.diameter .warn).testFlagWith forcedTake n r.diameter .splice).testFlagWith forcedTake n
        r.diameter .critical := by
  simp only [testFlags, testFlagsWith, runningReel_of_running running held]

/-! ### What a threshold event files (R36, R67) -/

/-- The splice flag files nothing. -/
theorem fileThreshold_splice (s : State) (n : StandNo) : s.fileThreshold n .splice = s := by
  simp only [fileThreshold, ite_self]

theorem fileThreshold_of_entries {t : Threshold} (entries : (s.stand n).queue ≠ []) : s.fileThreshold n t = s :=
  if_neg entries

theorem fileThreshold_warn (empty : (s.stand n).queue = []) :
    s.fileThreshold n .warn = s.fileReel n .noCandidate ⟨(s.stand n).running, none, none, none⟩ :=
  if_pos empty

theorem fileThreshold_critical (empty : (s.stand n).queue = []) :
    s.fileThreshold n .critical = s.fileReel n .runoutNear ⟨(s.stand n).running, none, none, none⟩ :=
  if_pos empty

/-! ### The event by the state of the stand -/

variable {force : StandNo → State → State}

theorem thresholdEvent_running (state : (s.stand n).state = .running) (t : Threshold) :
    s.thresholdEventWith force n t = s.thresholdInRunning force n t := by
  simp only [thresholdEventWith, state]

theorem thresholdInRunning_of_entries (entries : (s.stand n).queue ≠ []) (t : Threshold) :
    s.thresholdInRunning force n t =
      s.enterWaitingWith force n (some (calledLevel t)) := by
  cases t with
  | warn => exact if_neg entries
  | splice => exact if_neg entries
  | critical => exact if_neg entries

theorem thresholdEvent_waiting (state : (s.stand n).state = .waiting) (t : Threshold) :
    s.thresholdEventWith force n t = s.thresholdInWaiting force n t := by
  simp only [thresholdEventWith, state]

theorem thresholdEvent_beforePaste (state : (s.stand n).state = .runUp ∨ (s.stand n).state = .paste) (t : Threshold) :
    s.thresholdEventWith force n t = s.thresholdBeforePaste n t := by
  rcases state with state | state
  · simp only [thresholdEventWith, state]
  · simp only [thresholdEventWith, state]

theorem thresholdEvent_elsewhere (running : (s.stand n).state ≠ .running) (waiting : (s.stand n).state ≠ .waiting)
    (runUp : (s.stand n).state ≠ .runUp) (paste : (s.stand n).state ≠ .paste) (t : Threshold) :
    s.thresholdEventWith force n t = s.fileThreshold n t := by
  rw [thresholdEventWith]
  cases state : (s.stand n).state with
  | running => exact absurd state running
  | waiting => exact absurd state waiting
  | runUp => exact absurd state runUp
  | paste => exact absurd state paste
  | off | idle | backoff | held | locked | cut | settle => rfl

/-- In no state but RUNNING and WAITING does a warn or critical event do more than file. -/
theorem thresholdEvent_files {t : Threshold} (running : (s.stand n).state ≠ .running) (waiting : (s.stand n).state ≠ .waiting)
    (other : t ≠ .splice) : s.thresholdEventWith force n t = s.fileThreshold n t := by
  by_cases before : (s.stand n).state = .runUp ∨ (s.stand n).state = .paste
  · rw [thresholdEvent_beforePaste before]
    cases t with
    | warn => rfl
    | splice => exact absurd rfl other
    | critical => rfl
  · rw [not_or] at before
    exact thresholdEvent_elsewhere running waiting before.1 before.2 t

/-- With its queue empty a RUNNING stand does no more than file either. -/
theorem thresholdEvent_files_of_empty {t : Threshold} (waiting : (s.stand n).state ≠ .waiting) (empty : (s.stand n).queue = [])
    (other : t ≠ .splice) : s.thresholdEventWith force n t = s.fileThreshold n t := by
  by_cases running : (s.stand n).state = .running
  · exact (thresholdEvent_running running t).trans (if_pos empty)
  · exact thresholdEvent_files running waiting other

/-! ### The entry into RUNNING (R71) -/

/-- A RUNNING stand without a level, before it reads its flags. -/
def ran (s : State) (n : StandNo) : State := s.modStand n fun st => { st with state := .running, level := none }

theorem ran_stand (s : State) (n : StandNo) : (s.ran n).stand n = { s.stand n with state := .running, level := none } :=
  modStand_stand_self s n fun st => { st with state := .running, level := none }

theorem enterRunning_stays (still : (s.stand n).queue = [] ∨ levelCalledFor (s.stand n) = none) : s.enterRunning n = s.ran n := by
  refine if_neg fun ⟨entries, called⟩ => ?_
  change ((s.ran n).stand n).queue ≠ [] at entries
  change levelCalledFor ((s.ran n).stand n) ≠ none at called
  rw [ran_stand] at entries called
  exact still.elim entries called

theorem enterRunning_waits (entries : (s.stand n).queue ≠ []) {l : Level} (called : levelCalledFor (s.stand n) = some l) :
    s.enterRunning n = (s.ran n).enterWaiting n (some l) := by
  have queue : ((s.ran n).stand n).queue ≠ [] := by
    rw [ran_stand]
    exact entries
  have flags : levelCalledFor ((s.ran n).stand n) = some l := by
    rw [ran_stand]
    exact called
  exact readFlagsWith_of_some queue flags

end

end State

end Sys2Proof.Machine

namespace Sys2Proof.Statements

open Sys2Proof.Machine Sys2Proof.Safety

/-- Settles O51: the three tests in their order, the event by the state of the stand and its queue, and the level that the flags
call for. -/
theorem thresholdEventsAreTakenByState : Obligations.ThresholdEventsAreTakenByState := by
  refine ⟨fun s n => ⟨State.testFlags_of_empty, fun h r running held => State.testFlags_of_running running held⟩, ?events,
    ?enters⟩
  case events =>
    intro s n st event raise
    refine ⟨fun running entries => ?running, fun waiting => ⟨fun lower => ?warnRises, fun high => ?warnStays, fun lower =>
      ?spliceRises, fun urgent => ?spliceStays, ?critical⟩, fun before => ?before, fun running waiting runUp paste => ?elsewhere,
      fun running empty => ?runningEmpty, fun running waiting entries => ?entries, fun waiting empty => ?filed⟩
    case running =>
      have enters (t : Threshold) := (State.thresholdEvent_running (force := State.forcedTake) running t).trans
        (State.thresholdInRunning_of_entries entries t)
      exact ⟨enters .warn, enters .splice, enters .critical⟩
    case warnRises =>
      exact (State.thresholdEvent_waiting waiting .warn).trans (if_pos ((levelRank_lt_two_iff _).2 lower))
    case warnStays =>
      have notLower : ¬levelRank st.level < 2 := by
        rw [levelRank_lt_two_iff]
        rcases high with level | level <;> rw [level] <;> exact nofun
      exact (State.thresholdEvent_waiting waiting .warn).trans (if_neg notLower)
    case spliceRises =>
      exact (State.thresholdEvent_waiting waiting .splice).trans (if_pos ((levelRank_lt_three_iff _).2 lower))
    case spliceStays =>
      have notLower : ¬levelRank st.level < 3 := fun lower => (levelRank_lt_three_iff _).1 lower urgent
      exact (State.thresholdEvent_waiting waiting .splice).trans (if_neg notLower)
    case critical => exact State.thresholdEvent_waiting waiting .critical
    case before => exact (State.thresholdEvent_beforePaste before .splice).trans (State.fileThreshold_splice _ n)
    case elsewhere =>
      exact (State.thresholdEvent_elsewhere running waiting runUp paste .splice).trans (State.fileThreshold_splice s n)
    case runningEmpty =>
      exact (State.thresholdEvent_running running .splice).trans ((if_pos empty).trans (State.fileThreshold_splice s n))
    case entries =>
      have files {t : Threshold} (other : t ≠ .splice) : event t = s :=
        (State.thresholdEvent_files running waiting other).trans (State.fileThreshold_of_entries entries)
      exact ⟨files nofun, files nofun⟩
    case filed =>
      have files {t : Threshold} (other : t ≠ .splice) : event t = s.fileThreshold n t :=
        State.thresholdEvent_files_of_empty waiting empty other
      exact ⟨(files (t := .warn) nofun).trans (State.fileThreshold_warn empty),
        (files (t := .critical) nofun).trans (State.fileThreshold_critical empty)⟩
  case enters =>
    intro s n st entered
    refine ⟨fun still => ?stays, fun entries splice => ?urgent, fun entries splice warn => ?normal⟩
    case stays =>
      refine State.enterRunning_stays (still.imp_right fun ⟨warn, splice⟩ => ?_)
      change levelCalledFor st = none
      simp [levelCalledFor, warn, splice]
    case urgent =>
      have called : levelCalledFor st = some .urgent := by simp [levelCalledFor, splice]
      exact State.enterRunning_waits entries called
    case normal =>
      have called : levelCalledFor st = some .normal := by simp [levelCalledFor, splice, warn]
      exact State.enterRunning_waits entries called

end Sys2Proof.Statements
end

section
/-! PROOFS. Requests and forced takes (R72, R73, R93, R118, R125, R126): the taking of a splice, and the displacement of a GRANTED
holder, which waits again or takes its splice by force in its turn. -/

namespace Sys2Proof.Machine.State

/-! ### What a taking and an abandonment leave of other stands and blocks -/

/-- Two changes of a stand that agree on what it holds are one. -/
theorem modStand_congr {s : State} {n : StandNo} {f g : Stand → Stand} (same : f (s.stand n) = g (s.stand n)) :
    s.modStand n f = s.modStand n g := by
  rw [modStand, modStand, same]

theorem takeSplice_stand_ne (s : State) {n m : StandNo} (forced held : Bool) (other : n ≠ m) :
    (s.takeSplice n forced held).stand m = s.stand m := by
  rw [takeSplice]
  split
  · rfl
  · rw [modStand_stand, if_neg other]
    rfl

theorem takeSplice_profiles (s : State) (n : StandNo) (forced held : Bool) :
    (s.takeSplice n forced held).profiles = s.profiles := by
  rw [takeSplice]
  split <;> rfl

/-- An abandonment clears the run-up timer and the context of the stand, and nothing else of it (R92). -/
theorem abandon_stand {α : Type} (g : Stand → α) (ignores : ∀ st, g { st with runUpTimer := none, context := none } = g st)
    (s : State) (n : StandNo) (reason : Reason) : g ((s.abandon n reason).stand n) = g (s.stand n) := by
  rw [abandon]
  split
  · rfl
  · rw [modStand_stand_self, ignores]
    refine congrArg g ?_
    split <;> rfl

theorem abandon_profiles (s : State) (n : StandNo) (reason : Reason) : (s.abandon n reason).profiles = s.profiles := by
  rw [abandon]
  split
  · rfl
  · dsimp only
    split <;> rfl

/-- A splice that is postponed gives no permit back (R126). -/
theorem abandon_postponed_arbiters (s : State) (n : StandNo) : (s.abandon n .postponed).arbiters = s.arbiters := by
  rw [abandon]
  split
  · rfl
  · dsimp only
    rw [if_neg fun both => both.2 rfl]
    rfl

/-! ### Requests (R118, R119) -/

theorem raiseRequest_eq (s : State) (p : PathNo) (n : StandNo) (l : Option Level) :
    s.raiseRequest p n l = s.modArbiter p fun b => { b with requests := b.requests.set n l, decisionDue := true } := by
  rw [raiseRequest, promptDecision, setRequest, modArbiter_modArbiter]

theorem withdrawRequest_eq (s : State) (p : PathNo) (n : StandNo) :
    s.withdrawRequest p n = s.modArbiter p fun b => { b with requests := b.requests.set n none, decisionDue := true } :=
  s.raiseRequest_eq p n none

/-- A stand in WAITING at a level. -/
def waitingAtLevel (s : State) (n : StandNo) (l : Option Level) : State :=
  s.modStand n fun st => { st with state := .waiting, level := l }

section

variable {s : State} {n : StandNo} {l : Option Level}

theorem waitingAtLevel_critical (s : State) (n : StandNo) (l : Option Level) :
    ((s.waitingAtLevel n l).stand n).critical = (s.stand n).critical := by
  rw [waitingAtLevel, modStand_stand_self]

theorem enterWaiting_asks (calm : (s.stand n).critical = false) :
    s.enterWaiting n l = (s.waitingAtLevel n l).raiseRequest (s.pathOf n) n l :=
  if_neg (Bool.eq_false_iff.1 ((s.waitingAtLevel_critical n l).trans calm))

theorem enterWaiting_forces (critical : (s.stand n).critical = true) :
    s.enterWaiting n l = forcedTake n (s.waitingAtLevel n l) :=
  if_pos ((s.waitingAtLevel_critical n l).trans critical)

end

/-! ### The taking of a splice (R72, R73) -/

theorem takeSplice_eq {s : State} {n : StandNo} {h : Handle} {r : Reel} (forced held : Bool)
    (head : (s.stand n).queue.head? = some h) (live : s.reel h = some r) :
    s.takeSplice n forced held =
      ((s.setReel h (some { r with lock := true })).setDrive n true).modStand n fun st =>
        { st with
          state := .runUp
          runUpTimer := some (s.working n).runUpTime
          context := some
            { fresh := h
              freshArm := r.place.map (·.arm)
              former := st.running
              forced := forced
              permitHeld := held
              circumference := circumferenceOf r.diameter
              matchCount := 0
              lastMark := none
              watchArmed := false
              watchDeadline := none
              firePoint := none
              phaseTarget := none
              pasteCount := none
              spliceNumber := none
              knifeTarget := none
              settleTarget := none
              settleMarks := 0
              breakInCut := false } } := by
  simp only [takeSplice, head, live, Option.map_some, Option.bind_some, Option.getD_some,
    modReel_some (fun r : Reel => { r with lock := true }) live]

/-! ### The forced take by the state of the permit (R125, R126) -/

/-- What a forced take files (R125). -/
def forcedDetail (s : State) (n : StandNo) : Detail := ⟨(s.stand n).running, (s.stand n).queue.head?, none, none⟩

/-- The state with the stand's entry out of the requests of its path. -/
def unasked (s : State) (n : StandNo) : State :=
  s.modArbiter (s.pathOf n) fun b => { b with requests := b.requests.set n none }

/-- The state with the permit of its path FORCED to the stand, its splice taken and FORCED filed (R125). -/
def seizedTake (s : State) (n : StandNo) : State :=
  ((s.modArbiter (s.pathOf n) fun b => { b with requests := b.requests.set n none, permit := .forced n }).takeSplice n true
    true).fileSplice n .forced (s.forcedDetail n)

theorem seize_eq (s : State) (n : StandNo) :
    ((s.setRequest (s.pathOf n) n none).setPermit (s.pathOf n) (.forced n)).takeByForce n true = s.seizedTake n := by
  rw [setRequest, setPermit, modArbiter_modArbiter]
  rfl

section

variable {s : State} {n : StandNo}

theorem forcedTake_free (free : (s.arbiter (s.pathOf n)).permit = .free) : forcedTake n s = s.seizedTake n := by
  rw [forcedTake_eq, forcedTakeWith]
  simp only [free]
  exact s.seize_eq n

theorem forcedTake_forced {m : StandNo} (forced : (s.arbiter (s.pathOf n)).permit = .forced m) :
    forcedTake n s = ((s.unasked n).takeSplice n true false).fileSplice n .forced (s.forcedDetail n) := by
  rw [forcedTake_eq, forcedTakeWith]
  simp only [forced]
  rfl

theorem seizedTake_stand_ne {m : StandNo} (other : m ≠ n) : (s.seizedTake n).stand m = s.stand m :=
  takeSplice_stand_ne _ true true other.symm

theorem seizedTake_pathOf (m : StandNo) : (s.seizedTake n).pathOf m = s.pathOf m :=
  pathOf_of_profiles (takeSplice_profiles _ n true true) m

theorem seizedTake_permit : ((s.seizedTake n).arbiter (s.pathOf n)).permit = .forced n := by
  change ((takeSplice _ n true true).arbiter (s.pathOf n)).permit = _
  rw [takeSplice_arbiter, modArbiter_arbiter_self]

/-- A GRANTED holder before its paste is displaced: its splice is postponed, and it waits again (R126). -/
theorem forcedTake_granted {m : StandNo} (granted : (s.arbiter (s.pathOf n)).permit = .granted m) (other : m ≠ n)
    (before : beforePaste (s.stand m).state = true) :
    forcedTake n s = (s.seizedTake n).abandonToWaitingWith forcedTake m .postponed := by
  have displaced : beforePaste ((s.seizedTake n).stand m).state = true ∧ m ≠ n := by
    rw [seizedTake_stand_ne other]
    exact ⟨before, other⟩
  rw [forcedTake_eq, forcedTakeWith]
  simp only [granted, seize_eq]
  exact if_pos displaced

/-! ### The displaced stand (R93, R126) -/

/-- The displaced stand in WAITING, at the level it has kept. -/
def displaced (s : State) (n m : StandNo) : State :=
  ((s.seizedTake n).abandon m .postponed).modStand m fun st => { st with state := .waiting }

/-- A field of the displaced stand that neither the abandonment nor the entry into WAITING changes. -/
theorem displaced_stand {α : Type} (g : Stand → α)
    (ignores : ∀ st, g { st with runUpTimer := none, context := none } = g st)
    (waits : ∀ st, g { st with state := .waiting } = g st) {m : StandNo} (other : m ≠ n) :
    g ((s.displaced n m).stand m) = g (s.stand m) := by
  rw [displaced, modStand_stand_self, waits, abandon_stand g ignores, seizedTake_stand_ne other]

theorem displaced_pathOf (m i : StandNo) : (s.displaced n m).pathOf i = s.pathOf i :=
  (pathOf_of_profiles (abandon_profiles (s.seizedTake n) m .postponed) i).trans (seizedTake_pathOf i)

theorem displaced_permit (m : StandNo) : ((s.displaced n m).arbiter (s.pathOf n)).permit = .forced n := by
  have arbiters : (s.displaced n m).arbiters = (s.seizedTake n).arbiters := abandon_postponed_arbiters _ m
  rw [arbiter, arbiters]
  exact seizedTake_permit

/-- The level that the displaced stand re-enters WAITING at is the one it has kept. -/
theorem displaced_waits {m : StandNo} (other : m ≠ n) :
    ((s.seizedTake n).abandon m .postponed).waitingAtLevel m (s.stand m).level = s.displaced n m := by
  have kept : (((s.seizedTake n).abandon m .postponed).stand m).level = (s.stand m).level := by
    rw [abandon_stand Stand.level (fun _ => rfl), seizedTake_stand_ne other]
  refine modStand_congr ?_
  rw [← kept]

variable {m : StandNo} (granted : (s.arbiter (s.pathOf n)).permit = .granted m) (other : m ≠ n)
  (before : beforePaste (s.stand m).state = true) (here : s.pathOf m = s.pathOf n)
include granted other before here

theorem forcedTake_displaces (calm : (s.stand m).critical = false) :
    forcedTake n s =
      ((s.displaced n m).raiseRequest (s.pathOf n) m (s.stand m).level).applyDeferredProfile m := by
  have critical : (((s.seizedTake n).abandon m .postponed).stand m).critical = false := by
    rw [abandon_stand Stand.critical (fun _ => rfl), seizedTake_stand_ne other, calm]
  have path : ((s.seizedTake n).abandon m .postponed).pathOf m = s.pathOf n :=
    (pathOf_of_profiles (abandon_profiles _ m .postponed) m).trans ((seizedTake_pathOf m).trans here)
  have enters := enterWaiting_asks (l := (s.stand m).level) critical
  rw [displaced_waits other, path] at enters
  rw [forcedTake_granted granted other before, abandonToWaitingWith, seizedTake_stand_ne other]
  exact congrArg (applyDeferredProfile · m) enters

theorem forcedTake_displaces_critical (critical : (s.stand m).critical = true) :
    forcedTake n s =
      ((((s.displaced n m).modArbiter (s.pathOf n) fun b => { b with requests := b.requests.set m none }).takeSplice m true
        false).fileSplice m .forced (s.forcedDetail m)).applyDeferredProfile m := by
  have flag : (((s.seizedTake n).abandon m .postponed).stand m).critical = true := by
    rw [abandon_stand Stand.critical (fun _ => rfl), seizedTake_stand_ne other, critical]
  have path : (s.displaced n m).pathOf m = s.pathOf n := (displaced_pathOf m m).trans here
  have permit : ((s.displaced n m).arbiter ((s.displaced n m).pathOf m)).permit = .forced n := by
    rw [path]
    exact displaced_permit m
  have running := displaced_stand (s := s) Stand.running (fun _ => rfl) (fun _ => rfl) other
  have queue := displaced_stand (s := s) Stand.queue (fun _ => rfl) (fun _ => rfl) other
  have enters := enterWaiting_forces (l := (s.stand m).level) flag
  rw [displaced_waits other, forcedTake_forced permit, unasked, path, forcedDetail, running, queue] at enters
  rw [forcedTake_granted granted other before, abandonToWaitingWith, seizedTake_stand_ne other]
  exact congrArg (applyDeferredProfile · m) enters

end

end Sys2Proof.Machine.State

namespace Sys2Proof.Statements

open Sys2Proof.Machine Sys2Proof.Safety

/-- Settles O52: the critical flag at the entry into WAITING, the candidate of a splice that is taken, and the state of the permit
at a forced take. -/
theorem splicesAreTakenByForceOverAHolder : Obligations.SplicesAreTakenByForceOverAHolder := by
  refine ⟨fun s p n l => ⟨s.raiseRequest_eq p n l, s.withdrawRequest_eq p n, State.enterWaiting_asks, State.enterWaiting_forces⟩,
    fun s n forced held h r head live => State.takeSplice_eq forced held head live, ?force⟩
  case force =>
    intro s n p detail asked seized taken
    refine ⟨State.forcedTake_free, fun m forced => State.forcedTake_forced forced, ?_⟩
    intro m granted other before here waiting
    exact ⟨fun calm => State.forcedTake_displaces granted other before here calm,
      fun critical => State.forcedTake_displaces_critical granted other before here critical⟩

end Sys2Proof.Statements
end

section
/-! PROOFS. The decision of an arbiter (R121 to R124, R128): the adoption of a permit, the choice by level and by fair share, and
the decisions owed at the end of a step. -/

namespace Sys2Proof.Machine

/-! ### The choice by level (R122) -/

theorem mem_waitingAt (b : Arbiter) (l : Level) (n : StandNo) : n ∈ waitingAt b l ↔ b.requests[n] = some l := by
  simp [waitingAt]

theorem waitingAt_of_none {b : Arbiter} {l : Level} (none : ∀ n : StandNo, b.requests[n] ≠ some l) : waitingAt b l = [] :=
  List.eq_nil_iff_forall_not_mem.2 fun n there => none n ((mem_waitingAt b l n).1 there)

theorem highestWaiting_of_none {b : Arbiter} (silent : ∀ n : StandNo, b.requests[n] = none) : highestWaiting b = none := by
  have nobody (l : Level) : waitingAt b l = [] := waitingAt_of_none fun n => by rw [silent n]; exact nofun
  simp only [highestWaiting, nobody, ne_eq, not_true_eq_false, if_false]

/-- The stands chosen among are those waiting at the highest level that any waits at. -/
theorem highestWaiting_of_max {b : Arbiter} {n : StandNo} {l : Level} (waits : b.requests[n] = some l)
    (highest : ∀ (m : StandNo) k, b.requests[m] = some k → levelRank (some k) ≤ levelRank (some l)) :
    highestWaiting b = some (l, waitingAt b l) := by
  have somebody : waitingAt b l ≠ [] := List.ne_nil_of_mem ((mem_waitingAt b l n).2 waits)
  have nobody {k : Level} (above : levelRank (some l) < levelRank (some k)) : ¬(waitingAt b k ≠ []) :=
    not_not_intro (waitingAt_of_none fun m asks => Nat.not_le.2 above (highest m k asks))
  rw [highestWaiting]
  cases l with
  | urgent => exact if_pos somebody
  | normal => exact (if_neg (nobody (by decide))).trans (if_pos somebody)
  | early => exact (if_neg (nobody (by decide))).trans ((if_neg (nobody (by decide))).trans (if_pos somebody))

/-- A search among the stands waiting at a level finds the lowest-numbered one that meets the test. -/
theorem find_waitingAt_eq_some {b : Arbiter} {l : Level} {test : StandNo → Bool} {n : StandNo} (waits : b.requests[n] = some l)
    (meets : test n = true) (lowest : ∀ m < n, b.requests[m] = some l → test m = false) :
    (waitingAt b l).find? test = some n := by
  rw [waitingAt, List.find?_filter, ← Fin.find?_eq_find?_finRange, Fin.find?_eq_some_iff]
  refine ⟨decide_eq_true ⟨decide_eq_true waits, meets⟩, fun m earlier => decide_eq_false fun ⟨asks, passes⟩ => ?_⟩
  exact Bool.false_ne_true ((lowest m earlier (of_decide_eq_true asks)).symm.trans passes)

theorem head_waitingAt {b : Arbiter} {l : Level} {n : StandNo} (waits : b.requests[n] = some l)
    (lowest : ∀ m < n, b.requests[m] ≠ some l) : (waitingAt b l).head? = some n := by
  rw [waitingAt, List.head?_filter, ← Fin.find?_eq_find?_finRange, Fin.find?_eq_some_iff]
  exact ⟨decide_eq_true waits, fun m earlier => decide_eq_false (lowest m earlier)⟩

/-! ### The adoption (R128) -/

theorem splicesWithoutPermit_iff (st : Stand) :
    splicesWithoutPermit st = true ↔
      beforePaste st.state = true ∧ ∃ c, st.context = some c ∧ c.forced = true ∧ c.permitHeld = false := by
  simp [splicesWithoutPermit, Option.any_eq_true]

namespace State

/-- A stand of a path that splices without the permit before its paste (R128). -/
def Unpermitted (s : State) (p : PathNo) (n : StandNo) : Prop :=
  s.pathOf n = p ∧ splicesWithoutPermit (s.stand n) = true

theorem adoptable_eq_some {s : State} {p : PathNo} {n : StandNo} (without : s.Unpermitted p n)
    (lowest : ∀ m < n, ¬s.Unpermitted p m) : s.adoptable p = some n := by
  obtain ⟨assigned, splices⟩ := without
  rw [adoptable, standsOf, List.find?_filter, ← Fin.find?_eq_find?_finRange, Fin.find?_eq_some_iff]
  refine ⟨by simp [assigned, splices], fun m earlier => ?_⟩
  have passed := lowest m earlier
  rw [Unpermitted] at passed
  simpa using passed

theorem adoptable_eq_none {s : State} {p : PathNo} (nobody : ∀ n, ¬s.Unpermitted p n) : s.adoptable p = none := by
  rw [adoptable, standsOf, List.find?_eq_none]
  intro n assigned splices
  exact nobody n ⟨by simpa using assigned, splices⟩

/-! ### The decision (R121, R124) -/

/-- The permit is granted to a stand at a level, with fair-share marks given (R123, R124). -/
def grantWith (s : State) (p : PathNo) (n : StandNo) (l : Level) (marks : Vector Marks 12) : State :=
  (s.modArbiter p fun b =>
    { b with
      permit := .granted n
      requests := b.requests.set n none
      marks := marks.set n (withMark marks[n] l true) }).takeSplice n false true

theorem grant_eq (s : State) (p : PathNo) (n : StandNo) (l : Level) :
    s.grant p n l = s.grantWith p n l (s.arbiter p).marks := rfl

/-- The marks of a level after they are cleared for every stand of the path (R122, step 3). -/
def clearedMarks (s : State) (p : PathNo) (l : Level) : Vector Marks 12 :=
  Vector.ofFn fun n => if s.pathOf n = p then withMark (s.arbiter p).marks[n] l false else (s.arbiter p).marks[n]

theorem grant_clearLevelMarks (s : State) (p : PathNo) (n : StandNo) (l : Level) :
    (s.clearLevelMarks p l).grant p n l = s.grantWith p n l (s.clearedMarks p l) := by
  rw [clearLevelMarks, grant, modArbiter_modArbiter]
  rfl

section

variable {s : State} {p : PathNo}

theorem decision_of_held (held : (s.arbiter p).permit ≠ .free) : s.decision p = s :=
  if_neg held

variable (free : (s.arbiter p).permit = .free)
include free

theorem decision_adopts {n : StandNo} (adopts : s.adoptable p = some n) : s.decision p = s.adopt p n := by
  rw [decision, if_pos free, adopts]

variable (nobody : s.adoptable p = none)
include nobody

theorem decision_rests_of (rests : (s.arbiter p).pathClear = false ∨ ∀ n : StandNo, (s.arbiter p).requests[n] = none) :
    s.decision p = s := by
  rw [decision, if_pos free, nobody]
  by_cases clear : (s.arbiter p).pathClear = true
  · have none := highestWaiting_of_none (rests.resolve_left fun blocked => Bool.false_ne_true (blocked.symm.trans clear))
    simp only [if_pos clear, none]
  · exact if_neg clear

variable (clear : (s.arbiter p).pathClear = true) {n : StandNo} {l : Level} (waits : (s.arbiter p).requests[n] = some l)
  (highest : ∀ (m : StandNo) k, (s.arbiter p).requests[m] = some k → levelRank (some k) ≤ levelRank (some l))
include clear waits highest

theorem decision_grants : s.decision p = s.grantAmong p l (waitingAt (s.arbiter p) l) := by
  rw [decision, if_pos free, nobody]
  simp only [if_pos clear, highestWaiting_of_max waits highest]

/-- A stand without the mark of the level comes before those that have it (R122, step 2). -/
theorem decision_grants_unmarked (unmarked : markOf (s.arbiter p).marks[n] l = false)
    (lowest : ∀ m < n, (s.arbiter p).requests[m] = some l → markOf (s.arbiter p).marks[m] l = true) :
    s.decision p = s.grantWith p n l (s.arbiter p).marks := by
  have found := find_waitingAt_eq_some (test := fun n => !markOf (s.arbiter p).marks[n] l) waits
    (congrArg (!·) unmarked) fun m earlier asks => congrArg (!·) (lowest m earlier asks)
  rw [decision_grants free nobody clear waits highest]
  simp only [grantAmong, found]
  exact s.grant_eq p n l

/-- Where all have it, the marks of the level are cleared first (R122, step 3). -/
theorem decision_grants_marked (marked : ∀ m : StandNo, (s.arbiter p).requests[m] = some l → markOf (s.arbiter p).marks[m] l = true)
    (lowest : ∀ m < n, (s.arbiter p).requests[m] ≠ some l) : s.decision p = s.grantWith p n l (s.clearedMarks p l) := by
  have none : (waitingAt (s.arbiter p) l).find? (fun n => !markOf (s.arbiter p).marks[n] l) = none :=
    List.find?_eq_none.2 fun m there => by
      simp only [marked m ((mem_waitingAt _ _ _).1 there), Bool.not_true, Bool.false_eq_true, not_false_eq_true]
  obtain ⟨rest, first⟩ := List.head?_eq_some_iff.1 (head_waitingAt waits lowest)
  rw [decision_grants free nobody clear waits highest]
  simp only [grantAmong, none]
  rw [first]
  exact s.grant_clearLevelMarks p n l

end

/-! ### The decisions owed (R121, log 3) -/

/-- Where no arbiter but one owes a decision, that one's is the only one made. -/
theorem settleDecisions_of_single {s : State} {p : PathNo} (others : ∀ q, q ≠ p → (s.arbiter q).decisionDue = false) :
    s.settleDecisions = s.decideIfDue p := by
  have before {q : PathNo} (other : q ≠ p) : s.decideIfDue q = s := decideIfDue_of_not s q (others q other)
  have after {q : PathNo} (other : q ≠ p) : (s.decideIfDue p).decideIfDue q = s.decideIfDue p := by
    refine decideIfDue_of_not _ q ?_
    rw [decideIfDue_arbiter s p q other.symm]
    exact others q other
  rw [settleDecisions]
  match p with
  | 0 => rw [after (by decide), after (by decide), after (by decide)]
  | 1 => rw [before (by decide), after (by decide), after (by decide)]
  | 2 => rw [before (by decide), before (by decide), after (by decide)]
  | 3 => rw [before (by decide), before (by decide), before (by decide)]

end State

end Sys2Proof.Machine

namespace Sys2Proof.Statements

open Sys2Proof.Machine Sys2Proof.Safety

/-- Settles O53: the arbiters that owe a decision, the permit, the stands that splice without it, and the level and marks of those
that wait. -/
theorem arbitersDecideByLevelAndFairShare : Obligations.ArbitersDecideByLevelAndFairShare := by
  refine ⟨fun s => rfl, fun s p others => ⟨fun settled => ?settled, fun due => ?single⟩, ?decision⟩
  case settled =>
    exact (State.settleDecisions_of_single others).trans (State.decideIfDue_of_not s p settled)
  case single => exact (State.settleDecisions_of_single others).trans (if_pos due)
  case decision =>
    intro s p a without waits grant
    have without_iff (n : StandNo) : s.Unpermitted p n ↔ without n := by
      rw [State.Unpermitted, splicesWithoutPermit_iff]
    have nobody (alone : ∀ n, ¬without n) : s.adoptable p = none :=
      State.adoptable_eq_none fun n unpermitted => alone n ((without_iff n).1 unpermitted)
    refine ⟨State.decision_of_held, fun free n adopts lowest => ?adopts, fun free alone rests => ?rests,
      fun free alone clear n l asks highest => ⟨fun unmarked lowest => ?unmarked, fun marked lowest => ?marked⟩⟩
    case adopts =>
      exact State.decision_adopts free (State.adoptable_eq_some ((without_iff n).2 adopts)
        fun m earlier unpermitted => lowest m earlier ((without_iff m).1 unpermitted))
    case rests => exact State.decision_rests_of free (nobody alone) rests
    case unmarked => exact State.decision_grants_unmarked free (nobody alone) clear asks highest unmarked lowest
    case marked => exact State.decision_grants_marked free (nobody alone) clear asks highest marked lowest

end Sys2Proof.Statements
end

section
/-! PROOFS. The abandonment of a splice before its paste (R92), and the retry after it: BACKOFF, LOCKED and the backoff timer (R105,
R107 to R109). -/

namespace Sys2Proof.Machine.State

/-! ### The abandonment (R92) -/

theorem freePermit_eq (s : State) (p : PathNo) :
    s.freePermit p = s.modArbiter p fun b => { b with permit := .free, decisionDue := true } := by
  rw [freePermit, setPermit, promptDecision, modArbiter_modArbiter]

/-- The state in which an abandoned splice has released DRIVE and its fresh reel. -/
def releasedSplice (s : State) (n : StandNo) (c : SpliceContext) : State :=
  (s.setDrive n false).modReel c.fresh fun r => { r with lock := false }

/-- An abandoned splice is filed, and its context discarded. -/
def abandonedAs (s : State) (n : StandNo) (running : Option Handle) (fresh : Handle) (reason : Reason) : State :=
  (s.fileSplice n .aborted ⟨running, some fresh, none, some reason⟩).modStand n fun st =>
    { st with runUpTimer := none, context := none }

section

variable {s : State} {n : StandNo} {reason : Reason}

theorem abandon_of_no_context (none : (s.stand n).context = none) : s.abandon n reason = s := by
  simp only [abandon, none]

variable {c : SpliceContext} (held : (s.stand n).context = some c)
include held

theorem abandon_frees (permit : c.permitHeld = true) (other : reason ≠ .postponed) :
    s.abandon n reason =
      ((s.releasedSplice n c).freePermit (s.pathOf n)).abandonedAs n (s.stand n).running c.fresh reason := by
  have gives : c.permitHeld = true ∧ reason ≠ .postponed := ⟨permit, other⟩
  simp only [abandon, held, if_pos gives]
  rfl

theorem abandon_keeps_permit (kept : c.permitHeld = false ∨ reason = .postponed) :
    s.abandon n reason = (s.releasedSplice n c).abandonedAs n (s.stand n).running c.fresh reason := by
  have keeps : ¬(c.permitHeld = true ∧ reason ≠ .postponed) := fun ⟨permit, other⟩ =>
    kept.elim (fun lost => Bool.false_ne_true (lost.symm.trans permit)) other
  simp only [abandon, held, if_neg keeps]
  rfl

end

/-! ### The retry (R105, R107, R108, R109) -/

theorem working_of_profiles {s u : State} (same : u.profiles = s.profiles) (n : StandNo) : u.working n = s.working n := by
  rw [working, profile, same]
  rfl

theorem loseFreshMark_eq (s : State) (n : StandNo) :
    s.loseFreshMark n =
      ((s.abandon n .markLost).modStand n fun st =>
        { st with state := .backoff, backoffTimer := some (s.working n).retryDelay }).applyDeferredProfile n := by
  rw [loseFreshMark, enterBackoff, working_of_profiles (abandon_profiles s n .markLost)]

section

variable {s : State} {n : StandNo}

/-- The first stall sets the stall flag, and the stand backs off (R107). -/
theorem stallSplice_first (first : (s.stand n).stall = false) :
    s.stallSplice n =
      ((s.abandon n .stall).modStand n fun st =>
        { st with stall := true, state := .backoff, backoffTimer := some (s.working n).retryDelay }).applyDeferredProfile n := by
  have delay : ((s.abandon n .stall).modStand n fun st => { st with stall := true }).working n = s.working n :=
    working_of_profiles (abandon_profiles s n .stall) n
  rw [stallSplice, if_neg (Bool.eq_false_iff.1 first), firstStall, enterBackoff, delay, modStand_modStand]

/-- The second one locks the stand (R107). -/
theorem stallSplice_second (again : (s.stand n).stall = true) {c : SpliceContext} (held : (s.stand n).context = some c) :
    s.stallSplice n =
      (((s.abandon n .stall).modStand n fun st => { st with lock := true, level := none, state := .locked }).fileSplice n .locked
        ⟨(s.stand n).running, some c.fresh, none, none⟩).applyDeferredProfile n := by
  simp only [stallSplice, if_pos again, secondStall, held]
  rfl

theorem retry_of_empty (empty : (s.stand n).queue = []) :
    s.retry n =
      (s.modStand n fun st => { st with backoffTimer := none }).modStand n fun st =>
        { st with state := .running, level := none } :=
  if_pos empty

theorem retry_of_entries (entries : (s.stand n).queue ≠ []) :
    s.retry n =
      (s.modStand n fun st => { st with backoffTimer := none }).enterWaiting n
        (higherLevel (s.stand n).level (levelCalledFor (s.stand n))) :=
  if_neg entries

end

end Sys2Proof.Machine.State

namespace Sys2Proof.Machine

/-- The higher of two levels is one of them, and below neither (R109). -/
theorem higherLevel_spec (a b : Option Level) :
    (higherLevel a b = a ∨ higherLevel a b = b) ∧ levelRank a ≤ levelRank (higherLevel a b) ∧
      levelRank b ≤ levelRank (higherLevel a b) := by
  rw [higherLevel]
  split
  case isTrue lower => exact ⟨.inr rfl, lower.le, le_rfl⟩
  case isFalse notLower => exact ⟨.inl rfl, le_rfl, Nat.not_lt.1 notLower⟩

end Sys2Proof.Machine

namespace Sys2Proof.Statements

open Sys2Proof.Machine Sys2Proof.Safety

/-- Settles O54: the context and the permit for the abandonment; the watch, the stall flag and the queue for what follows it. -/
theorem abandonedSplicesBackOffAndRetry : Obligations.AbandonedSplicesBackOffAndRetry := by
  refine ⟨fun s n reason => ⟨State.abandon_of_no_context, fun c held => ?abandon⟩, fun n s ready => ?expiries⟩
  case abandon =>
    refine ⟨fun permit other => ?_, fun kept => State.abandon_keeps_permit held kept⟩
    rw [State.abandon_frees held permit other, State.freePermit_eq]
    rfl
  case expiries =>
    intro st w
    refine ⟨fun c d before held deadline due => ?markLost, fun c before held timed => ?stall, fun backoff timed => ?retry⟩
    case markLost =>
      have pending : s.pendingTarget (.freshReelMarkDeadline n) = some d := by
        rw [State.pendingTarget_freshReelMarkDeadline, if_pos before, held]
        exact deadline
      exact (exec_reached ready pending due).trans (by rw [State.takeTarget, State.loseFreshMark_eq])
    case stall =>
      have expires : beforePaste st.state = true ∧ st.runUpTimer.isSome = true :=
        ⟨(State.beforePaste_iff _).2 before, Option.isSome_iff_ne_none.2 timed⟩
      have ran : exec (.runUpTimerExpiry n) s = .next (s.stallSplice n).settleDecisions :=
        congrArg Host.Outcome.next ((State.atEvent_ready _ s ready).trans (congrArg State.settleDecisions (if_pos expires)))
      rw [ran]
      refine ⟨fun first => ?_, fun again => ?_⟩
      · rw [State.stallSplice_first first]
      · rw [State.stallSplice_second again held]
    case retry =>
      have expires : st.state = .backoff ∧ st.backoffTimer.isSome = true := ⟨backoff, Option.isSome_iff_ne_none.2 timed⟩
      have ran : exec (.backoffTimerExpiry n) s = .next (s.retry n).settleDecisions :=
        congrArg Host.Outcome.next ((State.atEvent_ready _ s ready).trans (congrArg State.settleDecisions (if_pos expires)))
      rw [ran]
      refine ⟨fun empty => ?_, fun entries => ?_⟩
      · rw [State.retry_of_empty empty]
      · obtain ⟨either, own, called⟩ := higherLevel_spec st.level (levelCalledFor st)
        exact ⟨_, either, own, called, by rw [State.retry_of_entries entries]⟩

end Sys2Proof.Statements
end

section
/-! PROOFS. Fresh-reel marks (R75, R76, R78, R79, R185): the revolutions that a run-up counts, the fire point, and the reload of the
phase target in PASTE. -/

namespace Sys2Proof.Machine

/-- A count up to 2^31 pulses ahead is not reached (R40). -/
theorem not_reached_ahead (count : Count) {d : Nat} (ahead : 0 < d) (near : d < 2147483648) :
    reached count (advance count d) = false := by
  have wraps : (count - advance count d).toNat = 4294967296 - d := by
    rw [advance]
    bv_omega
  rw [reached, wraps]
  exact decide_eq_false (by omega)

theorem advance_zero (count : Count) : advance count 0 = count := BitVec.add_zero count

namespace State

/-! ### The context after a mark in RUN-UP (R75, R76) -/

/-- The context after a mark that closes a revolution: it counts or is lost, and the watch arms with the first that counts. -/
def contextAfterRevolution (c : SpliceContext) (last count : Count) (perMille : Nat) : SpliceContext :=
  let inTol := inTolerance (count - last).toNat c.circumference perMille
  let armed := c.watchArmed || inTol
  { c with
    lastMark := some count
    matchCount := if inTol then c.matchCount + 1 else 0
    watchArmed := armed
    watchDeadline := if armed then some (advance count (2 * c.circumference)) else none }

theorem contextAfterMark_first {c : SpliceContext} (first : c.lastMark = none) (count : Count) (perMille : Nat) :
    contextAfterMark c count perMille = { c with lastMark := some count, matchCount := 0 } := by
  simp only [contextAfterMark, first]

theorem contextAfterMark_later {c : SpliceContext} {last : Count} (later : c.lastMark = some last) (count : Count)
    (perMille : Nat) : contextAfterMark c count perMille = contextAfterRevolution c last count perMille := by
  simp only [contextAfterMark, later]
  rfl

theorem matchComplete_first {c : SpliceContext} (first : c.lastMark = none) (after : SpliceContext) (revolutions : Nat) :
    ¬matchComplete c after revolutions = true := by
  simp [matchComplete, first]

theorem matchComplete_later {c : SpliceContext} {last : Count} (later : c.lastMark = some last) (after : SpliceContext)
    (revolutions : Nat) : matchComplete c after revolutions = true ↔ after.matchCount = revolutions := by
  simp [matchComplete, later]

section

variable {s : State} {n : StandNo} {c : SpliceContext}

/-! ### The paste that may follow at once (R78, R40) -/

theorem pasteIfReached_of_reached {t : Count} (held : (s.stand n).context = some c) (target : c.phaseTarget = some t)
    (due : reached (s.countOf n) t = true) : s.pasteIfReached n = s.takePaste n c t := by
  simp only [pasteIfReached, held, target]
  exact if_pos due

theorem pasteIfReached_of_not {t : Count} (held : (s.stand n).context = some c) (target : c.phaseTarget = some t)
    (early : reached (s.countOf n) t = false) : s.pasteIfReached n = s := by
  simp only [pasteIfReached, held, target]
  exact if_neg (Bool.eq_false_iff.1 early)

/-! ### A mark in RUN-UP (R75, R76, R78) -/

theorem markInRunUp_first (first : c.lastMark = none) :
    s.markInRunUp n c = s.modStand n fun st =>
      { st with stall := false, context := some { c with lastMark := some (s.countOf n), matchCount := 0 } } := by
  rw [← contextAfterMark_first first (s.countOf n) (s.working n).speedTolerance]
  exact if_neg (matchComplete_first first _ _)

/-- The context after a mark that closes a revolution on the stand's path. -/
def revolved (s : State) (n : StandNo) (c : SpliceContext) (last : Count) : SpliceContext :=
  contextAfterRevolution c last (s.countOf n) (s.working n).speedTolerance

/-- The stand in PASTE with the fire point of its splice (R77, R78). -/
def pasting (s : State) (n : StandNo) (c : SpliceContext) (last : Count) : State :=
  s.modStand n fun st =>
    { st with
      state := .paste
      stall := false
      context := some (withPhaseTarget (s.revolved n c last) (s.countOf n) (s.firePoint n c)) }

section

variable {last : Count} (later : c.lastMark = some last)
include later

theorem markInRunUp_counts (more : (s.revolved n c last).matchCount ≠ (s.working n).matchRevolutions) :
    s.markInRunUp n c = s.modStand n fun st => { st with stall := false, context := some (s.revolved n c last) } := by
  rw [revolved] at more ⊢
  rw [← contextAfterMark_later later] at more ⊢
  exact if_neg (mt (matchComplete_later later _ _).1 more)

theorem markInRunUp_matches (full : (s.revolved n c last).matchCount = (s.working n).matchRevolutions) :
    s.markInRunUp n c = (s.pasting n c last).pasteIfReached n := by
  rw [pasting, revolved, ← contextAfterMark_later later]
  rw [revolved, ← contextAfterMark_later later] at full
  exact if_pos ((matchComplete_later later _ _).2 full)

end

theorem pasting_context (s : State) (n : StandNo) (c : SpliceContext) (last : Count) :
    ((s.pasting n c last).stand n).context =
      some (withPhaseTarget (s.revolved n c last) (s.countOf n) (s.firePoint n c)) := by
  rw [pasting, modStand_stand_self]

theorem pasting_ahead {last : Count} (ahead : 0 < s.firePoint n c) (near : s.firePoint n c < 2147483648) :
    (s.pasting n c last).pasteIfReached n = s.pasting n c last :=
  pasteIfReached_of_not (s.pasting_context n c last) rfl (not_reached_ahead _ ahead near)

theorem pasting_at_once {last : Count} (zero : s.firePoint n c = 0) :
    (s.pasting n c last).pasteIfReached n =
      (s.pasting n c last).takePaste n (withPhaseTarget (s.revolved n c last) (s.countOf n) (s.firePoint n c))
        (s.countOf n) := by
  have target : advance (s.countOf n) (s.firePoint n c) = s.countOf n := by rw [zero, advance_zero]
  refine (pasteIfReached_of_reached (s.pasting_context n c last) rfl ?_).trans (by rw [target])
  rw [target]
  exact reached_self _

/-! ### A mark in PASTE (R79) -/

/-- The context that a mark in PASTE reloads from its fire point. -/
def reloaded (s : State) (n : StandNo) (c : SpliceContext) (fire : Nat) : SpliceContext :=
  { c with
    lastMark := some (s.countOf n)
    watchDeadline := some (advance (s.countOf n) (2 * c.circumference))
    phaseTarget := some (advance (s.countOf n) fire) }

theorem markInPaste_reloads {fire : Nat} (point : c.firePoint = some fire) (ahead : 0 < fire) (near : fire < 2147483648) :
    s.markInPaste n c = s.modStand n fun st => { st with stall := false, context := some (s.reloaded n c fire) } := by
  have held : ((s.modStand n fun st => { st with stall := false, context := some (s.reloaded n c fire) }).stand n).context =
      some (s.reloaded n c fire) := by rw [modStand_stand_self]
  have fires : c.firePoint.getD 0 = fire := by rw [point, Option.getD_some]
  rw [markInPaste, fires]
  exact pasteIfReached_of_not held rfl (not_reached_ahead _ ahead near)

/-! ### The mark by the state of the stand (R81) -/

variable {arm : Arm}

theorem takeFreshMark_of_not
    (other : (∀ c, (s.stand n).context = some c → c.freshArm ≠ some arm) ∨ beforePaste (s.stand n).state = false) :
    s.takeFreshMark n arm = s := by
  simp only [takeFreshMark]
  split
  · rfl
  · rename_i c held
    split
    · rename_i fresh
      have outside := other.resolve_left fun none => none c held fresh
      cases state : (s.stand n).state with
      | runUp | paste => rw [state] at outside; exact nomatch outside
      | off | idle | running | waiting | backoff | held | locked | cut | settle => rfl
    · rfl

variable (held : (s.stand n).context = some c) (fresh : c.freshArm = some arm)
include held fresh

theorem takeFreshMark_runUp (state : (s.stand n).state = .runUp) : s.takeFreshMark n arm = s.markInRunUp n c := by
  simp only [takeFreshMark, held, if_pos fresh, state]

theorem takeFreshMark_paste (state : (s.stand n).state = .paste) : s.takeFreshMark n arm = s.markInPaste n c := by
  simp only [takeFreshMark, held, if_pos fresh, state]

end

end State

end Sys2Proof.Machine

namespace Sys2Proof.Statements

open Sys2Proof.Machine Sys2Proof.Safety

/-- Settles O55: the spacing of the edge and the arm it comes on, the marks before it, the match, and the fire point. -/
theorem freshReelMarksMatchTheSpeed : Obligations.FreshReelMarksMatchTheSpeed := by
  intro n arm since s ready st w count late edge run
  have ran : run = .next (s.markEdge n arm since fun s => s.takeFreshMark n arm).settleDecisions :=
    congrArg Host.Outcome.next (State.atEvent_ready _ s ready)
  have taken (isLate : late) {u : State} (takes : edge.takeFreshMark n arm = u) : run = .next u.settleDecisions := by
    rw [ran, State.markEdge_late isLate, takes]
  refine ⟨fun early => ?early, fun isLate other => taken isLate (State.takeFreshMark_of_not (s := edge) other),
    fun c isLate held fresh => ?fresh⟩
  case early => rw [ran, State.markEdge_early early]
  case fresh =>
    have inRunUp (runUp : st.state = .runUp) {u : State} (marks : edge.markInRunUp n c = u) : run = .next u.settleDecisions :=
      taken isLate ((State.takeFreshMark_runUp (s := edge) held fresh runUp).trans marks)
    refine ⟨fun runUp first => inRunUp runUp (State.markInRunUp_first (s := edge) first), fun last runUp later => ?revolution,
      fun fire paste point ahead near => taken isLate ?reload⟩
    case revolution =>
      intro inTol armed after offset fire matched pasting
      exact ⟨fun more => inRunUp runUp (State.markInRunUp_counts (s := edge) later more),
        fun full ahead near => inRunUp runUp
          ((State.markInRunUp_matches (s := edge) later full).trans (State.pasting_ahead (s := edge) ahead near)),
        fun full zero => inRunUp runUp
          ((State.markInRunUp_matches (s := edge) later full).trans (State.pasting_at_once (s := edge) zero))⟩
    case reload =>
      exact (State.takeFreshMark_paste (s := edge) held fresh paste).trans
        (State.markInPaste_reloads (s := edge) point ahead near)

end Sys2Proof.Statements
end

section
/-! PROOFS. The paste and the transit queue (R80, R129, R135 to R144): the record that a paste enters or merges into, and the
targets of the records. -/

namespace Sys2Proof.Machine.State

/-- Two changes of a path's transit queue that agree on what it holds are one. -/
theorem modTransit_congr {s : State} {p : PathNo} {f g : Transit → Transit} (same : f (s.transit p) = g (s.transit p)) :
    s.modTransit p f = s.modTransit p g := by
  rw [modTransit, modTransit, same]

/-! ### The paste by the stand (R80) -/

/-- The splice context after the paste (R80). -/
def pastedContext (s : State) (n : StandNo) (c : SpliceContext) (paste : Count) : SpliceContext :=
  { c with
    permitHeld := false
    watchArmed := false
    watchDeadline := none
    phaseTarget := none
    pasteCount := some paste
    spliceNumber := some (s.transit (s.pathOf n)).spliceCounter
    knifeTarget := some (advance paste (s.working n).knifeDistance) }

/-- A stand in CUT after the paste. -/
def pastedStand (s : State) (n : StandNo) (c : SpliceContext) (paste : Count) (st : Stand) : Stand :=
  { st with
    state := .cut
    level := none
    stall := false
    runUpTimer := none
    context := some (s.pastedContext n c paste) }

section

variable (s : State) (n : StandNo) (c : SpliceContext) (paste : Count)

/-- The state with the splice pasted and in the transit queue, its permit not yet given back. -/
def trackedPaste : State := (s.startPulse n .paste).pasteTransit n paste c.forced

theorem makePaste_eq :
    s.makePaste n c paste =
      (if c.permitHeld then (s.trackedPaste n c paste).freePermit (s.pathOf n) else s.trackedPaste n c paste).modStand n
        (s.pastedStand n c paste) := rfl

theorem makePaste_state : ((s.makePaste n c paste).stand n).state = .cut := by
  rw [makePaste_eq, modStand_stand_self]
  rfl

theorem makePaste_context : ((s.makePaste n c paste).stand n).context = some (s.pastedContext n c paste) := by
  rw [makePaste_eq, modStand_stand_self]
  rfl

theorem trackedPaste_countOf : (s.trackedPaste n c paste).countOf n = s.countOf n := by
  rw [trackedPaste, pasteTransit_eq]
  rfl

theorem makePaste_countOf : (s.makePaste n c paste).countOf n = s.countOf n := by
  rw [makePaste_eq, modStand_countOf]
  split
  · rw [freePermit_eq, modArbiter_countOf, trackedPaste_countOf]
  · rw [trackedPaste_countOf]

theorem trackedPaste_phase : (s.trackedPaste n c paste).phase = s.phase := by
  rw [trackedPaste, pasteTransit_eq]
  rfl

theorem makePaste_phase : (s.makePaste n c paste).phase = s.phase := by
  rw [makePaste_eq]
  split
  · exact s.trackedPaste_phase n c paste
  · exact s.trackedPaste_phase n c paste

end

section

variable {s : State} {n : StandNo} {c : SpliceContext} {paste : Count}

theorem takePaste_of_not_reached (early : reached (s.countOf n) (advance paste (s.working n).knifeDistance) = false) :
    s.takePaste n c paste = s.makePaste n c paste := by
  rw [← makePaste_countOf s n c paste] at early
  exact cutIfReached_of_not _ n _ (s.makePaste_context n c paste) _ rfl early

/-- A knife target that is reached as it is set is taken with the paste (R40). -/
theorem takePaste_of_reached (due : reached (s.countOf n) (advance paste (s.working n).knifeDistance) = true) :
    s.takePaste n c paste = (s.makePaste n c paste).makeCut n (s.pastedContext n c paste) := by
  rw [← makePaste_countOf s n c paste] at due
  have cuts : ((s.makePaste n c paste).stand n).state = .cut ∧
      ((s.pastedContext n c paste).knifeTarget.any fun t => reached ((s.makePaste n c paste).countOf n) t) = true :=
    ⟨s.makePaste_state n c paste, due⟩
  simp only [takePaste, cutIfReached, makePaste_context]
  exact if_pos cuts

theorem onContext_of_some {event : SpliceContext → State} (held : (s.stand n).context = some c) :
    s.onContext n event = event c := by
  rw [onContext, held]

theorem contextTarget_of_stage {stage : StandState} {target : SpliceContext → Option Count}
    (state : (s.stand n).state = stage) (held : (s.stand n).context = some c) :
    s.contextTarget n stage target = target c := by
  rw [contextTarget, if_pos state, held, Option.bind_some]

end

/-! ### The Transit Tracker's part of a paste (R135 to R140) -/

/-- A path's transit queue with the splice counter advanced, REJECT and the path-clear state following it (R135, R143, R120). -/
def followQueue (u : State) (p : PathNo) (number : SpliceNo) (queue : List TransitRecord) : State :=
  (u.modTransit p fun _ => ⟨queue, number + 1, queue.any (·.rejecting)⟩).modArbiter p fun b =>
    { b with pathClear := queueClear queue }

section

variable {s : State} {n : StandNo} {paste : Count} {forced : Bool}

theorem pasteTransit_follows {queue : List TransitRecord} {u : State} (enters : s.queueAfterPaste n paste forced = queue)
    (files : (s.modNotices fun _ => s.noticesAfterPaste n) = u) :
    s.pasteTransit n paste forced = u.followQueue (s.pathOf n) (s.transit (s.pathOf n)).spliceCounter queue := by
  subst enters files
  rw [pasteTransit_eq]
  exact congrArg (modArbiter · _ _) (modTransit_congr rfl)

/-- The record that the paste of a stand enters (R136, R137). -/
def enteredRecord (s : State) (n : StandNo) (paste : Count) (forced overlap : Bool) : TransitRecord :=
  newRecord (s.transit (s.pathOf n)).spliceCounter n paste (s.countOf n) (s.countsOfPaste n paste) forced overlap

/-- The detail that names the splice of a paste (R138, R139). -/
def numberDetail (s : State) (n : StandNo) : Detail := ⟨none, none, some (s.transit (s.pathOf n)).spliceCounter, none⟩

section

variable (room : (s.transit (s.pathOf n)).queue.length < 4)
include room

theorem queueAfterPaste_of_room :
    s.queueAfterPaste n paste forced =
      (s.transit (s.pathOf n)).queue ++
        [s.enteredRecord n paste forced ((s.transit (s.pathOf n)).queue.any fun r => !r.guardReached)] :=
  if_pos room

theorem pasteTransit_clear (clear : ∀ r ∈ (s.transit (s.pathOf n)).queue, r.guardReached = true) :
    s.pasteTransit n paste forced =
      s.followQueue (s.pathOf n) (s.transit (s.pathOf n)).spliceCounter
        ((s.transit (s.pathOf n)).queue ++ [s.enteredRecord n paste forced false]) := by
  have none : ((s.transit (s.pathOf n)).queue.any fun r => !r.guardReached) = false := by
    rw [List.any_eq_false]
    exact fun r there => by simp [clear r there]
  have silent : s.noticesAfterPaste n = s.notices :=
    (if_pos room).trans (if_neg (Bool.eq_false_iff.1 none))
  exact pasteTransit_follows ((queueAfterPaste_of_room room).trans (by rw [none])) (by rw [silent]; rfl)

theorem pasteTransit_overlap (overlaps : ∃ r ∈ (s.transit (s.pathOf n)).queue, r.guardReached = false) :
    s.pasteTransit n paste forced =
      (s.fileLine (pathSource (s.pathOf n)) .overlap (s.numberDetail n)).followQueue (s.pathOf n)
        (s.transit (s.pathOf n)).spliceCounter
        ((s.transit (s.pathOf n)).queue ++ [s.enteredRecord n paste forced true]) := by
  have some : ((s.transit (s.pathOf n)).queue.any fun r => !r.guardReached) = true := by
    obtain ⟨r, there, unreached⟩ := overlaps
    exact List.any_eq_true.2 ⟨r, there, by simp [unreached]⟩
  have filed : s.noticesAfterPaste n = (s.fileLine (pathSource (s.pathOf n)) .overlap (s.numberDetail n)).notices :=
    (if_pos room).trans (if_pos some)
  exact pasteTransit_follows ((queueAfterPaste_of_room room).trans (by rw [some])) (by rw [filed]; rfl)

end

/-- In a full queue the splice is merged into the youngest record (R139, R140). -/
theorem pasteTransit_merges {older : List TransitRecord} {r : TransitRecord} (full : 3 ≤ older.length)
    (queue : (s.transit (s.pathOf n)).queue = older ++ [r]) :
    s.pasteTransit n paste forced =
      (s.fileLine (pathSource (s.pathOf n)) .merged (s.numberDetail n)).followQueue (s.pathOf n)
        (s.transit (s.pathOf n)).spliceCounter
        (older ++ [mergedRecord r (s.countOf n) (s.countsOfPaste n paste) forced]) := by
  have noRoom : ¬(s.transit (s.pathOf n)).queue.length < Config.transitCapacity := by
    rw [queue, List.length_append, List.length_singleton]
    exact Nat.not_lt.2 (Nat.succ_le_succ full)
  have merges : s.queueAfterPaste n paste forced = older ++ [mergedRecord r (s.countOf n) (s.countsOfPaste n paste) forced] :=
    (if_neg noRoom).trans (by rw [queue, changeYoungest_append])
  have filed : s.noticesAfterPaste n = (s.fileLine (pathSource (s.pathOf n)) .merged (s.numberDetail n)).notices :=
    if_neg noRoom
  exact pasteTransit_follows merges (by rw [filed]; rfl)

end

/-! ### The targets of the records (R141, R142, R144) -/

/-- A change of the transit queue of a path, REJECT following it (R143). -/
def rejectFollowing (s : State) (p : PathNo) (queue : List TransitRecord) : State :=
  s.modTransit p fun t => { t with queue := queue, reject := queue.any (·.rejecting) }

/-- The report of a queue to the arbiter of its path, which owes a decision after it (R120, R121). -/
def reported (s : State) (p : PathNo) (queue : List TransitRecord) : State :=
  s.modArbiter p fun b => { b with pathClear := queueClear queue, decisionDue := true }

theorem reportDecision_eq (s : State) (p : PathNo) : s.reportDecision p = s.reported p (s.transit p).queue := by
  rw [reportDecision, reportTransit, promptDecision, modArbiter_modArbiter]
  rfl

section

variable {s : State} {p : PathNo} {position : Nat} {r : TransitRecord}
  (there : (s.transit p).queue[position]? = some r)
include there

/-- A change of the record at a position is its replacement. -/
theorem modify_eq_set_of_there (f : TransitRecord → TransitRecord) :
    (s.transit p).queue.modify position f = (s.transit p).queue.set position (f r) := by
  rw [List.modify_eq_set_getElem?, there]
  rfl

theorem startReject_eq :
    s.startReject p position = s.rejectFollowing p ((s.transit p).queue.set position { r with rejecting := true }) := by
  rw [startReject, setReject, modTransit_modTransit, rejectFollowing]
  refine modTransit_congr ?_
  simp only [modify_eq_set_of_there there]

omit there in
theorem endReject_eq (s : State) (p : PathNo) (position : Nat) :
    s.endReject p position =
      (s.rejectFollowing p ((s.transit p).queue.eraseIdx position)).reported p ((s.transit p).queue.eraseIdx position) := by
  have leaves : ((s.modTransit p fun t => { t with queue := t.queue.eraseIdx position }).setReject p) =
      s.rejectFollowing p ((s.transit p).queue.eraseIdx position) := by
    rw [setReject, modTransit_modTransit, rejectFollowing]
    exact modTransit_congr rfl
  have queue : ((s.rejectFollowing p ((s.transit p).queue.eraseIdx position)).transit p).queue =
      (s.transit p).queue.eraseIdx position := by rw [rejectFollowing, modTransit_transit_self]
  rw [endReject, leaves, reportDecision_eq, queue]

theorem reachGuard_eq :
    s.reachGuard p position =
      (s.modTransit p fun t =>
        { t with queue := (s.transit p).queue.set position { r with guardReached := true } }).reported p
        ((s.transit p).queue.set position { r with guardReached := true }) := by
  have guards : (s.modTransit p fun t =>
      { t with queue := t.queue.modify position fun r => { r with guardReached := true } }) =
      s.modTransit p fun t => { t with queue := (s.transit p).queue.set position { r with guardReached := true } } :=
    modTransit_congr (by simp only [modify_eq_set_of_there there])
  rw [reachGuard, guards, reportDecision_eq, modTransit_transit_self]

end

end Sys2Proof.Machine.State

namespace Sys2Proof.Statements

open Sys2Proof.Machine Sys2Proof.Safety

/-- Settles O56: the target of the paste, the knife target that it sets, the permit, and the room in the transit queue. -/
theorem thePasteEntersATransitRecord : Obligations.ThePasteEntersATransitRecord := by
  refine ⟨fun n s c t ready state held target due => ?row, ?cut, ?stand, ?transit, fun _ _ _ => rfl⟩
  case row =>
    have pending : s.pendingTarget (.paste n) = some t := (State.contextTarget_of_stage state held).trans target
    refine (exec_reached ready pending due).trans ?_
    rw [State.takeTarget, State.onContext_of_some held]
  case cut =>
    intro s n c paste pasted knife
    refine ⟨State.takePaste_of_not_reached, fun ready due => ?_⟩
    have state := s.makePaste_state n c paste
    have held := s.makePaste_context n c paste
    have pending : pasted.pendingTarget (.cut n) = some knife := State.contextTarget_of_stage state held
    have counted : reached (pasted.countOf n) knife = true := by rw [s.makePaste_countOf n c paste, due]
    refine (exec_reached ((s.makePaste_phase n c paste).trans ready) pending counted).trans ?_
    rw [State.takeTarget, State.onContext_of_some held, State.takePaste_of_reached due]
  case stand =>
    intro s n c paste p tracked enter
    refine ⟨fun permit => ?_, fun permit => ?_⟩
    · rw [State.makePaste_eq, if_pos permit, State.freePermit_eq]
      rfl
    · rw [State.makePaste_eq, if_neg (Bool.eq_false_iff.1 permit)]
      rfl
  case transit =>
    intro s n paste forced p t g gate start stop guard count follow record named source
    refine ⟨fun room clear => State.pasteTransit_clear room clear, fun room overlaps => State.pasteTransit_overlap room overlaps, ?_⟩
    intro older r full queue earlier later merged
    exact State.pasteTransit_merges full queue

/-- Settles O57: the three targets of a record, each by what it makes of the queue. -/
theorem transitTargetsAreTaken : Obligations.TransitTargetsAreTaken := by
  intro p position s r ready there t count reject report started left guarded
  refine ⟨fun travelling due => ?start, fun due => ?finish, fun unreached due => ?guard⟩
  case start =>
    have pending : s.pendingTarget (.rejectStart p position) = some r.rejectStart := by
      simp [State.pendingTarget, there, travelling]
    refine (exec_reached ready pending due).trans ?_
    rw [State.takeTarget, State.startReject_eq there]
    rfl
  case finish =>
    have pending : s.pendingTarget (.rejectEnd p position) = some r.rejectEnd := by simp [State.pendingTarget, there]
    refine (exec_reached ready pending due).trans ?_
    rw [State.takeTarget, State.endReject_eq]
    rfl
  case guard =>
    have pending : s.pendingTarget (.guardCount p position) = some r.guardCount := by
      simp [State.pendingTarget, there, unreached]
    refine (exec_reached ready pending due).trans ?_
    rw [State.takeTarget, State.reachGuard_eq there]
    rfl

end Sys2Proof.Statements
end

section
/-! PROOFS. The cut and the end of SETTLE (R82 to R85, R103, R113), and the web break by the state of the stand (R85, R86, R89, R90,
R112 to R114). -/

namespace Sys2Proof.Machine.State

/-! ### The cut (R82) -/

theorem endRunningReel_profiles (s : State) (n : StandNo) : (s.endRunningReel n).profiles = s.profiles := by
  rw [endRunningReel]
  split <;> rfl

theorem changeReels_profiles (s : State) (n : StandNo) (c : SpliceContext) : (s.changeReels n c).profiles = s.profiles :=
  (startWatcher_profiles _ n).trans (s.endRunningReel_profiles n)

theorem countOf_of_same {s u : State} (profiles : u.profiles = s.profiles) (webs : u.webs = s.webs) (n : StandNo) :
    u.countOf n = s.countOf n := by
  rw [countOf, pathOf_of_profiles profiles, web, webs]
  rfl

theorem changeReels_countOf (s : State) (n : StandNo) (c : SpliceContext) : (s.changeReels n c).countOf n = s.countOf n :=
  countOf_of_same (s.changeReels_profiles n c) ((Flows.refl (strict := false) s).changeReels n c).webs_eq n

/-- The fresh reel leaves the queue and becomes the running reel in one change of the stand (R82, step 3). -/
theorem changeReels_eq (s : State) (n : StandNo) (c : SpliceContext) :
    s.changeReels n c =
      (((s.endRunningReel n).becomeRunning c.fresh c.spliceNumber).modStand n fun st =>
        { st with queue := st.queue.filter (· != c.fresh), running := some c.fresh }).startWatcher n := by
  rw [changeReels, leaveQueue, modStand_modStand]

/-- The stand in SETTLE after the cut, before its flags are tested (R82). -/
def settling (s : State) (n : StandNo) (c : SpliceContext) : State :=
  ((s.startPulse n .knife).changeReels n c).enterSettle n c

theorem settling_eq (s : State) (n : StandNo) (c : SpliceContext) :
    s.settling n c =
      (((s.startPulse n .knife).changeReels n c).modOutputs n fun o => { o with brake := true }).modStand n fun st =>
        { st with
          state := .settle
          brakeTimer := some (s.working n).brakeTime
          context := some
            { c with
              knifeTarget := none
              settleTarget := some (advance (s.countOf n) (s.working n).settleLength)
              settleMarks := 0 } } := by
  have working : ((s.startPulse n .knife).changeReels n c).working n = s.working n :=
    working_of_profiles (changeReels_profiles _ n c) n
  have count : ((s.startPulse n .knife).changeReels n c).countOf n = s.countOf n := changeReels_countOf _ n c
  rw [settling, enterSettle, working, count]

section

variable {s : State} {n : StandNo} {c : SpliceContext}

theorem makeCut_whole (whole : c.breakInCut = false) : s.makeCut n c = (s.settling n c).testFlags n :=
  if_neg (Bool.eq_false_iff.1 whole)

theorem makeCut_broken (broken : c.breakInCut = true) :
    s.makeCut n c = ((s.settling n c).testFlags n).breakInSettle n c :=
  if_pos broken

/-! ### The end of SETTLE (R84) -/

/-- A complete splice is filed and its context discarded (R84). -/
def completed (s : State) (n : StandNo) (c : SpliceContext) : State :=
  ((s.setDrive n false).fileSplice n .complete ⟨c.former, some c.fresh, c.spliceNumber, none⟩).modStand n fun st =>
    { st with context := none }

theorem endSettle_running (marks : c.settleMarks = 2) (free : (s.stand n).hold = false) :
    s.endSettle n c = ((s.completed n c).enterRunning n).applyDeferred n := by
  rw [endSettle, if_pos marks]
  exact congrArg (applyDeferred · n) (if_neg (Bool.eq_false_iff.1 free))

theorem endSettle_held (marks : c.settleMarks = 2) (hold : (s.stand n).hold = true) :
    s.endSettle n c = ((s.completed n c).modStand n fun st => { st with state := .held }).applyDeferred n := by
  rw [endSettle, if_pos marks]
  exact congrArg (applyDeferred · n) (if_pos hold)

theorem endSettle_fails (marks : c.settleMarks ≠ 2) : s.endSettle n c = (s.failSplice n c .noMarks).applyDeferred n := by
  rw [endSettle, if_neg marks]

end

/-! ### The deferred actions (R103) -/

/-- A deferred reset, if it is owed. -/
def resetIfOwed (s : State) (n : StandNo) : State :=
  if (s.stand n).deferredReset then (s.modStand n fun st => { st with deferredReset := false }).resetStand n else s

/-- A deferred disable, if it is owed. -/
def disableIfOwed (s : State) (n : StandNo) : State :=
  if (s.stand n).deferredDisable then (s.modStand n fun st => { st with deferredDisable := false }).disable n else s

/-- The deferred actions are the reset, the disable and the profile, in that order (R103). -/
theorem applyDeferred_eq (s : State) (n : StandNo) :
    s.applyDeferred n = ((s.resetIfOwed n).disableIfOwed n).applyDeferredProfile n := rfl

section

variable {s : State} {n : StandNo}

theorem resetIfOwed_of_not (none : (s.stand n).deferredReset = false) : s.resetIfOwed n = s :=
  if_neg (Bool.eq_false_iff.1 none)

theorem resetIfOwed_quiet (owed : (s.stand n).deferredReset = true) (quiet : splicing (s.stand n).state = false) :
    s.resetIfOwed n = (s.modStand n fun st => { st with deferredReset := false }).resetEffects n := by
  have other : beforePaste ((s.modStand n fun st => { st with deferredReset := false }).stand n).state = false := by
    rw [modStand_stand_self]
    exact (Bool.or_eq_false_iff.1 quiet).1
  exact (if_pos owed).trans (resetStand_of_not_beforePaste other)

theorem disableIfOwed_of_not (none : (s.stand n).deferredDisable = false) : s.disableIfOwed n = s :=
  if_neg (Bool.eq_false_iff.1 none)

variable (owed : (s.stand n).deferredDisable = true)
include owed

theorem disableIfOwed_quiet (quiet : splicing (s.stand n).state = false) :
    s.disableIfOwed n = (s.modStand n fun st => { st with deferredDisable := false }).enterOff n := by
  have other : beforePaste ((s.modStand n fun st => { st with deferredDisable := false }).stand n).state = false := by
    rw [modStand_stand_self]
    exact (Bool.or_eq_false_iff.1 quiet).1
  exact (if_pos owed).trans (disable_of_not_beforePaste other)

theorem disableIfOwed_beforePaste (before : beforePaste (s.stand n).state = true) :
    s.disableIfOwed n =
      ((s.modStand n fun st => { st with deferredDisable := false }).abandon n .disable).enterOff n := by
  have splices : beforePaste ((s.modStand n fun st => { st with deferredDisable := false }).stand n).state = true := by
    rw [modStand_stand_self]
    exact before
  exact (if_pos owed).trans (disable_beforePaste splices)

end

/-! ### What a web break files (R85, R86, R89, R90) -/

/-- A web break is reported with a running handle (R90). -/
def reportedBreak (s : State) (n : StandNo) (running : Option Handle) : State :=
  (s.modStand n fun st => { st with webBroken := true }).fileLine (standSource n) .webBreak ⟨running, none, none, none⟩

/-- The running reel has ended, and RUNOUT is filed with its handle (R89). -/
def runOut (s : State) (n : StandNo) (running : Option Handle) : State :=
  (s.endRunningReel n).fileLine (standSource n) .runout ⟨running, none, none, none⟩

theorem reportBreak_eq {s : State} {n : StandNo} {running : Option Handle} (same : (s.stand n).running = running) :
    s.reportBreak n = s.reportedBreak n running := by
  have kept : ((s.modStand n fun st => { st with webBroken := true }).stand n).running = running := by
    rw [modStand_stand_self, same]
  rw [reportBreak, fileWebBreak, kept]
  rfl

theorem endReelByBreak_eq {s : State} {n : StandNo} {running : Option Handle} (same : (s.stand n).running = running) :
    s.endReelByBreak n = s.runOut n running := by
  rw [endReelByBreak, same]
  rfl

theorem fileWebBreak_of_empty {s : State} {n : StandNo} (empty : (s.stand n).running = none) :
    s.fileWebBreak n = s.fileLine (standSource n) .webBreak ⟨none, none, none, none⟩ := by
  rw [fileWebBreak, empty]
  rfl

/-! ### A web break by the state of the stand (Figure 25) -/

section

variable {s : State} {n : StandNo}

theorem takeBreak_ends (state : (s.stand n).state = .running ∨ (s.stand n).state = .backoff)
    (critical : (s.stand n).critical = true) :
    s.takeBreak n =
      (s.runOut n (s.stand n).running).modStand n fun st =>
        { st with state := .idle, level := none, backoffTimer := none } := by
  have other : (s.stand n).state ≠ .waiting := by rcases state with state | state <;> rw [state] <;> exact nofun
  have ends : s.takeBreak n = s.webEnd n := by
    rcases state with state | state <;> simp only [takeBreak, state, if_pos critical]
  rw [ends, webEnd, withdrawIfWaiting_of_not other, endReelByBreak_eq rfl]

theorem takeBreak_ends_waiting (state : (s.stand n).state = .waiting) (critical : (s.stand n).critical = true) :
    s.takeBreak n =
      ((s.withdrawRequest (s.pathOf n) n).runOut n (s.stand n).running).modStand n fun st =>
        { st with state := .idle, level := none, backoffTimer := none } := by
  have ends : s.takeBreak n = s.webEnd n := by simp only [takeBreak, state, if_pos critical]
  have kept : ((s.withdrawRequest (s.pathOf n) n).stand n).running = (s.stand n).running := rfl
  rw [ends, webEnd, withdrawIfWaiting_of_waiting state, endReelByBreak_eq kept]

theorem takeBreak_reports (state : (s.stand n).state = .running ∨ (s.stand n).state = .waiting ∨ (s.stand n).state = .backoff)
    (calm : (s.stand n).critical = false) : s.takeBreak n = s.reportedBreak n (s.stand n).running := by
  rw [← reportBreak_eq rfl]
  rcases state with state | state | state <;> simp only [takeBreak, state, if_neg (Bool.eq_false_iff.1 calm)]

theorem takeBreak_beforePaste (state : (s.stand n).state = .runUp ∨ (s.stand n).state = .paste) :
    s.takeBreak n = s.breakBeforePaste n := by
  rcases state with state | state
  · simp only [takeBreak, state]
  · simp only [takeBreak, state]

theorem breakBeforePaste_ends (critical : (s.stand n).critical = true) :
    s.breakBeforePaste n =
      (((s.abandon n .webBreak).modStand n fun st => { st with state := .idle, level := none }).runOut n
        (s.stand n).running).applyDeferredProfile n := by
  have kept : (((s.abandon n .webBreak).modStand n fun st => { st with state := .idle, level := none }).stand n).running =
      (s.stand n).running := by
    rw [modStand_stand_self, ← abandon_stand Stand.running (fun _ => rfl) s n .webBreak]
  rw [← endReelByBreak_eq kept]
  exact congrArg (applyDeferredProfile · n) (if_pos critical)

theorem breakBeforePaste_reports (calm : (s.stand n).critical = false) :
    s.breakBeforePaste n =
      (((s.abandon n .webBreak).modStand n fun st => { st with state := .held, level := none, hold := true }).reportedBreak n
        (s.stand n).running).applyDeferredProfile n := by
  have kept : (((s.abandon n .webBreak).modStand n fun st =>
      { st with state := .held, level := none, hold := true }).stand n).running = (s.stand n).running := by
    rw [modStand_stand_self, ← abandon_stand Stand.running (fun _ => rfl) s n .webBreak]
  rw [← reportBreak_eq kept]
  exact congrArg (applyDeferredProfile · n) (if_neg (Bool.eq_false_iff.1 calm))

theorem takeBreak_cut (state : (s.stand n).state = .cut) : s.takeBreak n = s.recordBreak n := by
  simp only [takeBreak, state]

theorem takeBreak_settle (state : (s.stand n).state = .settle) {c : SpliceContext} (held : (s.stand n).context = some c) :
    s.takeBreak n = ((s.failSplice n c .webBreak).reportedBreak n (s.stand n).running).applyDeferred n := by
  have kept : ((s.failSplice n c .webBreak).stand n).running = (s.stand n).running := by
    change (((s.setDrive n false).modStand n fun st =>
      { st with state := .held, hold := true, context := none }).stand n).running = (s.stand n).running
    rw [modStand_stand_self]
    rfl
  have fails : s.takeBreak n = s.breakInSettle n c := by simp only [takeBreak, state, held]
  rw [fails, ← reportBreak_eq kept]
  rfl

theorem takeBreak_atRest (state : (s.stand n).state = .held ∨ (s.stand n).state = .locked ∨ (s.stand n).state = .off) :
    s.takeBreak n = s.breakAtRest n := by
  rcases state with state | state | state
  · simp only [takeBreak, state]
  · simp only [takeBreak, state]
  · simp only [takeBreak, state]

theorem breakAtRest_ends (running : (s.stand n).running ≠ none) (critical : (s.stand n).critical = true) :
    s.breakAtRest n = s.runOut n (s.stand n).running := by
  obtain ⟨h, there⟩ := Option.ne_none_iff_exists'.1 running
  rw [← endReelByBreak_eq rfl]
  simp only [breakAtRest, there, if_pos critical]

theorem breakAtRest_reports (running : (s.stand n).running ≠ none) (calm : (s.stand n).critical = false) :
    s.breakAtRest n = s.reportedBreak n (s.stand n).running := by
  obtain ⟨h, there⟩ := Option.ne_none_iff_exists'.1 running
  rw [← reportBreak_eq rfl]
  simp only [breakAtRest, there, if_neg (Bool.eq_false_iff.1 calm)]

theorem takeBreak_of_empty
    (state : (s.stand n).state = .idle ∨ (s.stand n).state = .held ∨ (s.stand n).state = .locked ∨ (s.stand n).state = .off)
    (empty : (s.stand n).running = none) :
    s.takeBreak n = s.fileLine (standSource n) .webBreak ⟨none, none, none, none⟩ := by
  rw [← fileWebBreak_of_empty empty]
  rcases state with idle | rest
  · simp only [takeBreak, idle]
  · rw [takeBreak_atRest rest]
    simp only [breakAtRest, empty]

end

end Sys2Proof.Machine.State

namespace Sys2Proof.Statements

open Sys2Proof.Machine Sys2Proof.Safety

/-- Settles O58: the two targets of a splice past its paste, and the deferred actions by the marks that are set. -/
theorem theCutAndTheEndOfSettle : Obligations.TheCutAndTheEndOfSettle := by
  refine ⟨fun n s c t ready state held target due => ?cut, fun n s c t ready state held target due => ?settle,
    fun s n => ⟨fun c reason => rfl, ?deferred⟩⟩
  case cut =>
    intro w pulsed changed settling
    have pending : s.pendingTarget (.cut n) = some t := (State.contextTarget_of_stage state held).trans target
    have cuts : exec (.cut n) s = .next (s.makeCut n c).settleDecisions :=
      (exec_reached ready pending due).trans (by rw [State.takeTarget, State.onContext_of_some held])
    have settles : s.settling n c = settling := by
      rw [State.settling_eq, State.changeReels_eq]
      rfl
    rw [cuts, ← settles]
    refine ⟨fun whole => ?_, fun broken => ?_⟩
    · rw [State.makeCut_whole whole]
    · rw [State.makeCut_broken broken]
  case settle =>
    intro released complete
    have pending : s.pendingTarget (.settle n) = some t := (State.contextTarget_of_stage state held).trans target
    have ends : exec (.settleTargetReached n) s = .next (s.endSettle n c).settleDecisions :=
      (exec_reached ready pending due).trans (by rw [State.takeTarget, State.onContext_of_some held])
    rw [ends]
    refine ⟨fun marks free => ?_, fun marks hold => ?_, fun marks => ?_⟩
    · rw [State.endSettle_running marks free]
      rfl
    · rw [State.endSettle_held marks hold]
      rfl
    · rw [State.endSettle_fails marks]
  case deferred =>
    intro reset disabled whole
    have unreset (none : (s.stand n).deferredReset = false) :
        s.applyDeferred n = (s.disableIfOwed n).applyDeferredProfile n := by
      rw [State.applyDeferred_eq, State.resetIfOwed_of_not none]
    have afterReset (owed : (s.stand n).deferredReset = true) (quiet : splicing (s.stand n).state = false) :
        s.applyDeferred n = (whole.disableIfOwed n).applyDeferredProfile n := by
      rw [State.applyDeferred_eq, State.resetIfOwed_quiet owed quiet]
    refine ⟨fun none enabled => ?_, fun none owed quiet => ?_, fun none owed before => ?_, fun owed quiet =>
      ⟨fun enabled => ?_, fun disables still => ?_, fun disables before => ?_⟩⟩
    · rw [unreset none, State.disableIfOwed_of_not enabled]
    · rw [unreset none, State.disableIfOwed_quiet owed quiet]
    · rw [unreset none, State.disableIfOwed_beforePaste owed before]
    · rw [afterReset owed quiet, State.disableIfOwed_of_not enabled]
    · rw [afterReset owed quiet, State.disableIfOwed_quiet disables still]
    · rw [afterReset owed quiet, State.disableIfOwed_beforePaste disables before]

/-- Settles O59: the state of the stand at the break, its critical flag and its running reel. -/
theorem webBreaksActByState : Obligations.WebBreaksActByState := by
  intro n s settling st u run source named report finish idle ended stopped
  have broke {v : State} (breaks : u.takeBreak n = v) : run = .next v.settleDecisions :=
    congrArg Host.Outcome.next ((atEvent_settling settling fun s => s.takeBreak n).trans (congrArg State.settleDecisions breaks))
  refine ⟨fun state _ critical => broke ?ends, fun state _ critical => broke ?endsWaiting, fun state calm => broke ?reports,
    fun state critical => broke ?endsSplice, fun state calm => broke ?reportsSplice, fun state => broke ?cut,
    fun c state held => broke ?settle, fun state running critical => broke ?endsAtRest,
    fun state running calm => broke ?reportsAtRest, fun state empty => broke ?empty⟩
  case ends => exact State.takeBreak_ends (s := u) state critical
  case endsWaiting => exact State.takeBreak_ends_waiting (s := u) state critical
  case reports => exact State.takeBreak_reports (s := u) state calm
  case endsSplice => exact (State.takeBreak_beforePaste (s := u) state).trans (State.breakBeforePaste_ends (s := u) critical)
  case reportsSplice => exact (State.takeBreak_beforePaste (s := u) state).trans (State.breakBeforePaste_reports (s := u) calm)
  case cut => exact State.takeBreak_cut (s := u) state
  case settle => exact State.takeBreak_settle (s := u) state held
  case endsAtRest =>
    exact (State.takeBreak_atRest (s := u) state).trans (State.breakAtRest_ends (s := u) running critical)
  case reportsAtRest =>
    exact (State.takeBreak_atRest (s := u) state).trans (State.breakAtRest_reports (s := u) running calm)
  case empty => exact State.takeBreak_of_empty (s := u) (state.imp_right And.left) empty

end Sys2Proof.Statements
end
